-- ==== Sys2Proof/Word.lean ====
section
/-! DEFINITION. The widths of the block's values (00_scope.md R5, R7) and its one modular addition. -/

namespace Sys2Proof

/-- A duty value or the accumulator: an unsigned 8-bit value (R5 `DUTY_W`, `ACC_W`). -/
abbrev Byte := BitVec 8

/-- A transaction word (R71). -/
abbrev Word := BitVec 16

/-- The channel field of a transaction word, an address in the duty address space (R50, R72). -/
abbrev Channel := BitVec 4

/-- One value for each of the 12 channels, indexed 0 to 11 (R5 `N_CH`). -/
abbrev PerChannel (α : Type) := Vector α 12

/-- 12 duty values: the duty file, or one frame of the writer (R22, Glossary "Frame"). -/
abbrev Frame := PerChannel Byte

/-- 12 output levels, true for high (R25). -/
abbrev Levels := PerChannel Bool

/-- `a +8 b` of R7: addition modulo 256. -/
abbrev add8 (a b : Byte) : Byte := a + b

end Sys2Proof
end

