-- ==== Sys2Proof/Syntax.lean ====
section
/-! DEFINITION. The operations of the block's interface, one constructor per row of spec/opcode_table.json (30_encoding.md R74). -/

namespace Sys2Proof

/-- The six operations of R74. A channel operand is the raw 4-bit field: 12 to 15 are operands too, on which the
operation records a fault (R78). -/
inductive Instr where
  /-- `STORE c<ch>, v` (R120). -/
  | store (ch : Channel) (v : Byte)
  /-- `LOAD c<ch>` (R121). -/
  | load (ch : Channel)
  /-- `GATE_OFF` (R140). -/
  | gateOff
  /-- `GATE_ON` (R141). -/
  | gateOn
  /-- `TICK`, one timer-overflow arrival (R100). -/
  | tick
  /-- `RESET`, device reset (R210). -/
  | reset
  deriving DecidableEq, Repr

end Sys2Proof
end

