-- ==== Sys2Proof/Syntax/Trace.lean ====
section
/-! DEFINITION. Who issues operations (00_scope.md R9) and the lines of the trace syntax (30_encoding.md R81, R82). -/

namespace Sys2Proof

/-- The three agents that issue operations (R9). -/
inductive Agent where
  /-- Issues `TICK` on port `tick`. -/
  | tickSource
  /-- Issues `STORE`, `LOAD`, `GATE_OFF`, `GATE_ON` on port `req`. -/
  | writer
  /-- Issues `RESET` on port `reset`. -/
  | environment
  deriving DecidableEq, Repr

/-- One line of the trace syntax (R81) or one pseudo-operation (R82), with its numbers as written. -/
inductive TraceLine where
  /-- `store c<n>, <v>` -/
  | store (n v : Nat)
  /-- `load c<n>` -/
  | load (n : Nat)
  /-- `gate.off` -/
  | gateOff
  /-- `gate.on` -/
  | gateOn
  /-- `tick` -/
  | tick
  /-- `reset` -/
  | reset
  /-- `.word <hex>`: a raw transaction word, reserved or malformed ones included. -/
  | word (w : Nat)
  /-- `frame v0, ..., v11` -/
  | frame (vs : List Nat)
  /-- `fill v` -/
  | fill (v : Nat)
  /-- `ticks k` -/
  | ticks (k : Nat)
  deriving DecidableEq, Repr

end Sys2Proof
end

