-- ==== Sys2Proof/Decode.lean ====
section
/-! DEFINITION. The decoder (30_encoding.md R80), total on every word and on every byte string, and the encoder (R74, R81). -/

namespace Sys2Proof

/-- Why a word spells no operation: the `Invalid` reasons of R80. -/
inductive Reject where
  /-- `OP` is reserved (R76). -/
  | reservedOpcode
  /-- A field the operation does not use is not 0 (R77). -/
  | reservedField
  deriving DecidableEq, Repr

/-- What the decoder answers: `Op | Invalid(reason)` of R80. -/
inductive Decoded where
  | op (i : Instr)
  | invalid (r : Reject)
  deriving DecidableEq, Repr

/-- `OP = w[15:12]` (R72). -/
def opField (w : Word) : BitVec 4 := w.extractLsb' 12 4

/-- `CH = w[11:8]` (R72). -/
def chField (w : Word) : Channel := w.extractLsb' 8 4

/-- `V = w[7:0]` (R72). -/
def vField (w : Word) : Byte := w.extractLsb' 0 8

/-- `w[11:0]`, the bits that an operation without operands does not use (R77). -/
def operandBits (w : Word) : BitVec 12 := w.extractLsb' 0 12

/-- An operation without operands: every bit of `w[11:0]` must be 0 (R77, R80). -/
def bare (w : Word) (i : Instr) : Decoded :=
  if operandBits w = 0 then .op i else .invalid .reservedField

/-- The decoder of R80. It does not check that the channel is below 12 (R78). -/
def decode (w : Word) : Decoded :=
  match (opField w).toNat with
  | 0x1 => .op (.store (chField w) (vField w))
  | 0x2 => if vField w = 0 then .op (.load (chField w)) else .invalid .reservedField
  | 0x3 => bare w .gateOff
  | 0x4 => bare w .gateOn
  | 0x8 => bare w .tick
  | 0xF => bare w .reset
  | _ => .invalid .reservedOpcode

/-- The word of an operation (R74, R81): the fields of R72, with 0 in the ones it does not use. -/
def encode : Instr → Word
  | .store ch v => 0x1#4 ++ ch ++ v
  | .load ch => 0x2#4 ++ ch ++ 0x00#8
  | .gateOff => 0x3000#16
  | .gateOn => 0x4000#16
  | .tick => 0x8000#16
  | .reset => 0xF000#16

/-- The one agent that issues an operation: the column "issued by" of R74's table (R75). -/
def issuer : Instr → Agent
  | .store _ _ => .writer
  | .load _ => .writer
  | .gateOff => .writer
  | .gateOn => .writer
  | .tick => .tickSource
  | .reset => .environment

/-- The agent a word belongs to where nothing else attributes it: the issuer of the operation it spells, and the writer,
whose port `req` carries words (R70), where it spells none. DESIGN CHOICE, unsafe (log entry 12). -/
def rightfulAgent (w : Word) : Agent :=
  match decode w with
  | .op i => issuer i
  | .invalid _ => .writer

/-- A row of R74's opcode map. -/
structure OpcodeRow where
  mnemonic : String
  pattern : Word
  mask : Word
  issuedBy : Agent
  deriving DecidableEq, Repr

/-- R74's table, without its reserved rows. -/
def opcodeTable : List OpcodeRow :=
  [⟨"STORE", 0x1000, 0xF000, .writer⟩,
   ⟨"LOAD", 0x2000, 0xF0FF, .writer⟩,
   ⟨"GATE_OFF", 0x3000, 0xFFFF, .writer⟩,
   ⟨"GATE_ON", 0x4000, 0xFFFF, .writer⟩,
   ⟨"TICK", 0x8000, 0xFFFF, .tickSource⟩,
   ⟨"RESET", 0xF000, 0xFFFF, .environment⟩]

/-- The mnemonic of an operation (R74). -/
def mnemonic : Instr → String
  | .store _ _ => "STORE"
  | .load _ => "LOAD"
  | .gateOff => "GATE_OFF"
  | .gateOn => "GATE_ON"
  | .tick => "TICK"
  | .reset => "RESET"

/-- A word kept as bytes, the more significant one (`OP` and `CH`) first (R53). -/
def wordBytes (w : Word) : List Byte := [w.extractLsb' 8 8, w.extractLsb' 0 8]

/-- A recorded trace kept as bytes (R53). -/
def traceBytes (ws : List Word) : List Byte := ws.flatMap wordBytes

/-- What stands at the front of a byte string. -/
inductive TraceRead where
  /-- A word, what it decodes to, and the bytes after it. -/
  | word (w : Word) (d : Decoded) (rest : List Byte)
  /-- A byte with no second byte: not a word. -/
  | halfWord (b : Byte)
  /-- Nothing is left. -/
  | endOfTrace
  deriving DecidableEq, Repr

/-- Reads one word of a trace kept as bytes (R53) and decodes it (R80): total on every byte string. -/
def readTrace : List Byte → TraceRead
  | [] => .endOfTrace
  | [b] => .halfWord b
  | hi :: lo :: rest => .word (hi ++ lo) (decode (hi ++ lo)) rest

/-- All the words of a trace kept as bytes; none where a lone byte is left over. -/
def traceWords : List Byte → Option (List Word)
  | [] => some []
  | [_] => none
  | hi :: lo :: rest => (traceWords rest).map ((hi ++ lo) :: ·)

/-- The transaction word whose lowest `nbits` bits are those of `w`, the bits above them 0. -/
def tableWord (nbits w : Nat) : Word := BitVec.ofNat 16 (w % 2 ^ nbits)

/-- What the decoder reads from the word `tableWord nbits w`, laid out as bytes (R53). -/
def decodeTableWord (nbits w : Nat) : Option Instr :=
  match readTrace (wordBytes (tableWord nbits w)) with
  | .word _ (.op i) _ => some i
  | .word _ (.invalid _) _ => none
  | .halfWord _ => none
  | .endOfTrace => none

end Sys2Proof
end

