-- ==== Sys2Proof/Config.lean ====
section
/-! DEFINITION. The fixed parameters (00_scope.md R5), the open parameters (R6) and the free values. -/

namespace Sys2Proof

/-- R5 `N_CH`. -/
abbrev Config.nChannels : Nat := 12

/-- R5 `PWM_PERIOD_TICKS`: serviced ticks in one PWM period. -/
abbrev Config.pwmPeriodTicks : Nat := 256

/-- R5 `WINDOW_MAX_STORES`: stores allowed in one gated window. -/
abbrev Config.windowMaxStores : Nat := 12

/-- The clamp bound `MAX_FRAMES` of the upload command (R51, R163). -/
abbrev Config.maxFrames : Nat := 60

/-- R6 `GATED_TICK_POLICY`: what a tick arriving with `GATE = 0` does (R100, 92 D6). -/
inductive GatedTickPolicy where
  /-- One arrival per gated window is latched in `PEND`, every further one is lost. -/
  | defer1
  /-- Every arrival is lost. -/
  | drop
  deriving DecidableEq, Repr

/-- The open parameters of R6 that some rule reads. No operation changes one. -/
structure Params where
  /-- `DUTY_RESET` (92 D10). -/
  dutyReset : Frame
  /-- `ACC_RESET` (92 D10). -/
  accReset : Byte
  /-- `GATED_TICK_POLICY` (92 D6). -/
  gatedTickPolicy : GatedTickPolicy
  /-- `DRAIN_EXCESS`, read by the writer agent only (92 D19). -/
  drainExcess : Bool
  deriving DecidableEq, Repr

/-- The defaults R6 refers to: 92 D10 (zeros), D6 (`DEFER1`), D19 (false). -/
def Params.default : Params where
  dutyReset := Vector.replicate 12 0x00#8
  accReset := 0x00#8
  gatedTickPolicy := .defer1
  drainExcess := false

/-- FREE VALUE (log entry 4): the 12 levels that the `n`-th draw of `OUT_RESET` gives (R34, R210, R215). -/
opaque Config.outDraw (n : Nat) : Levels

/-- FREE VALUE (log entry 16): one less than `TICK_PERIOD`, so that the period is positive (R6). -/
opaque Config.tickPeriodPred : Nat

/-- R6 `TICK_PERIOD`: a positive duration that no rule of the block reads (R227). -/
def Config.tickPeriod : Nat := Config.tickPeriodPred + 1

/-- R189: how long one PWM period lasts when no tick is lost or deferred. -/
def Config.pwmPeriodDuration : Nat := Config.pwmPeriodTicks * Config.tickPeriod

end Sys2Proof
end

