-- ==== Sys2Proof/Machine/State.lean ====
section
/-! DEFINITION. The state of the block (10_state.md), of its interface (30_encoding.md R70) and of the writer agent
(45_writer_agent.md), all of it plain data. -/

namespace Sys2Proof.Machine

/-- Why a record stands in `FAULTS`: the fault reasons of R181 and the refusal reasons of R182. -/
inductive Reason where
  /-- Fault 1: `STORE` or `LOAD` with `CH >= 12` (R78, R181). -/
  | illegalChannel
  /-- Fault 2: the 13th store of one gated window (R120, R181). -/
  | windowOverrun
  /-- Refusal R1: the word's `OP` is reserved (R76, R182). -/
  | reservedOpcode
  /-- Refusal R2: a field the operation does not use is not 0 (R77, R182). -/
  | reservedField
  /-- Refusal R3: an agent that does not issue the operation (R75, R182). -/
  | wrongAgent
  deriving DecidableEq, Repr

/-- A record of `FAULTS`: `(reason, w, position in the trace)` (R181, R182). -/
structure FaultRecord where
  reason : Reason
  word : Word
  position : Nat
  deriving DecidableEq, Repr

/-- One event of a trace: an operation at the block's interface (R9, R70), or an event of the writer agent's own world,
which reaches the block only through the operations the writer then issues (R160-R172). -/
inductive Event where
  /-- A transaction word at port `tick`, `req` or `reset`, attributed to an agent (R70, R74, R75). -/
  | op (agent : Agent) (word : Word)
  /-- The serial link hands the writer one byte (R162-R167, R171). -/
  | serialByte (b : Byte)
  /-- The main loop makes its next move: it issues its next block operation, or else reads its next byte (R160). -/
  | writerTurn
  /-- The Playback Engine has advanced and computed these 12 values, any bytes (R168). -/
  | advance (u : Frame)
  deriving DecidableEq, Repr

/-- The writer's playback flag (R162, R163, R165, R166). -/
inductive Playback where
  | stopped
  | playing
  deriving DecidableEq, Repr

/-- What the Command Processor reads next (R162-R167). -/
inductive Phase where
  /-- A command byte. -/
  | command
  /-- A payload byte of command 0xFF, after the ones listed (R162). -/
  | colour (got : List Byte)
  /-- The length byte of command 0xFE (R163 step 2). -/
  | uploadLength
  /-- A frame byte of command 0xFE: `n` frames are stored, `excess` bytes follow them, `read` bytes are in (R163 step 3). -/
  | uploadFrames (n excess read : Nat)
  /-- One of the last `left` bytes beyond the clamped length, to be discarded (R163 step 4). -/
  | uploadDrain (n left : Nat)
  /-- The payload byte of command 0xFD (R164). -/
  | speed
  deriving DecidableEq, Repr

/-- The documented writer: as much of the main loop as decides which operations it issues (R160-R172; log entry 13). -/
structure Writer where
  playback : Playback
  /-- The playback speed, 1 to 10 (R164). -/
  speed : Nat
  /-- `pattern_length`, in frames (R163). -/
  patternLength : Nat
  /-- The Pattern Store's bytes, 12 a frame, contiguous (R51, R163). -/
  store : List Byte
  phase : Phase
  /-- Bytes received and not yet read, oldest first (R171). -/
  received : List Byte
  /-- Block operations not yet issued, in program order (R160). -/
  queue : List Instr
  deriving DecidableEq, Repr

/-- The writer after a device reset: Stopped, with an empty pattern and no command in progress (R210). The speed of 1 and the
dropped received bytes are DESIGN CHOICES, unsafe (log entries 13, 14). -/
def Writer.boot : Writer where
  playback := .stopped
  speed := 1
  patternLength := 0
  store := []
  phase := .command
  received := []
  queue := []

/-- The block raises no exception and never stops (R180, R181, R182): no step ends in a fault, so there is none
(log entry 7, safe: the fault RECORDS of R181 are in `State.faults`). -/
inductive Fault where
  deriving DecidableEq, Repr

/-- Why a step can refuse. The refusal RECORDS of R182 are in `State.faults`: they stop nothing. -/
inductive Refusal where
  /-- An instruction without a meaning yet, raised by `exec` alone; safe. No arm of `exec` raises it. -/
  | notModelled (mnemonic : String)
  deriving DecidableEq, Repr

/-- The machine: the block (10_state.md), its interface (R70) and its writer agent. -/
structure State where
  /-- `DUTY[0..11]`, the duty file and the whole duty address space (R22, R50). -/
  duty : Frame
  /-- `ACC` (R24). -/
  acc : Byte
  /-- `OUT[0..11]`, true for high (R25). -/
  out : Levels
  /-- `GATE`, true for 1: tick sampling enabled (R26). -/
  gate : Bool
  /-- `PEND`, the timer-overflow latch (R27). -/
  pend : Bool
  /-- `WIN_STORES` (R29). -/
  winStores : Nat
  /-- `LOST` (R29). -/
  lost : Nat
  /-- `FAULTS`, in order of recording (R29, R181, R182). -/
  faults : List FaultRecord
  /-- Port `rdata`: the byte the last operation returned, none where it returned none (R70, R121). -/
  rdata : Option Byte
  /-- How many operations of the trace have been issued, the one being executed included: its position (R181). -/
  position : Nat
  /-- The events still to come, next one first (R9). -/
  trace : List Event
  /-- The documented writer (R160-R172). -/
  writer : Writer
  /-- The open parameters (R6). -/
  params : Params
  /-- The MODEL'S own counter of free values drawn so far (log entry 4). -/
  draws : Nat
  deriving DecidableEq, Repr

/-- The machine as a `RESET` leaves it at the start of a run (R34, R212), with parameters `p` and nothing of the trace known
yet. Its `OUT` is draw number 0, a free value. -/
def State.resetWith (p : Params) : State where
  duty := p.dutyReset
  acc := p.accReset
  out := Config.outDraw 0
  gate := true
  pend := false
  winStores := 0
  lost := 0
  faults := []
  rdata := none
  position := 0
  trace := []
  writer := Writer.boot
  params := p
  draws := 1

/-- The machine right after reset, with the default parameters (R6, R34, R212). -/
def State.reset : State := State.resetWith Params.default

end Sys2Proof.Machine
end

