-- ==== Sys2Proof/Machine/Flags.lean ====
section
/-! DEFINITION. The comparators and the output levels they drive (40_pwm_tick.md R102). The block has no condition codes
(10_state.md R30). -/

namespace Sys2Proof.Machine

/-- The comparator of one channel: `d >u a`, strict and unsigned (R7, R102). -/
def comparator (d a : Byte) : Bool := decide (d.toNat > a.toNat)

/-- The 12 comparators against one accumulator value (R101, R104). -/
def levels (duty : Frame) (a : Byte) : Levels := Vector.ofFn fun c => comparator duty[c] a

/-- Port `out`: the 12 levels as one vector, `out[c] = OUT[c]` (R70). -/
def outPort (s : State) : BitVec 12 := (BitVec.ofBoolListLE s.out.toList).setWidth 12

/-- Group G0 = `out[5:0]`, channels 0 to 5 (R25, R70). -/
def outGroup0 (s : State) : BitVec 6 := (outPort s).extractLsb' 0 6

/-- Group G1 = `out[11:6]`, channels 6 to 11 (R25, R70). -/
def outGroup1 (s : State) : BitVec 6 := (outPort s).extractLsb' 6 6

end Sys2Proof.Machine
end

