-- ==== Sys2Proof/Machine/Operands.lean ====
section
/-! DEFINITION. The one operand form: a channel index as an address of the duty address space (20_memory.md R50, 30_encoding.md
R72, R73), and the duty file seen as the memory it is. -/

namespace Sys2Proof.Machine

/-- `ch = zext_8(w[11:8])` (R73): the address a channel field names. -/
def channelAddr (ch : Channel) : Nat := (ch.setWidth 8).toNat

/-- Addresses 0 to 11 are mapped, 12 to 15 are not (R50). -/
def mapped (a : Nat) : Bool := decide (a < Config.nChannels)

/-- `MemRead(a, 1)`, which is `DUTY[a]` (R8, R50): none at an unmapped address. -/
def memRead (s : State) (a : Nat) : Option Byte :=
  if h : a < 12 then some s.duty[a] else none

/-- `MemWrite(a, 1, v)`, which is `DUTY[a] <- v` (R8, R50): nothing changes at an unmapped address. -/
def memWrite (s : State) (a : Nat) (v : Byte) : State :=
  if h : a < 12 then { s with duty := s.duty.set a v } else s

/-- The duty address space written out as address and byte cells (log entry 11). -/
def memCells (s : State) : List Host.Cell :=
  (List.range Config.nChannels).map fun a => (a, (memRead s a).getD 0)

/-- The canonical form of the duty address space as cells: the 12 mapped addresses, strictly rising, each listed once. An
unlisted address reads as no value, so no entry equals what an unlisted address reads as. -/
def memCellsWf (m : List Host.Cell) : Bool := decide (m.map Prod.fst = List.range Config.nChannels)

end Sys2Proof.Machine
end

