-- ==== Sys2Proof/Machine/Ops.lean ====
section
/-! DEFINITION. The named operations the meanings share: records (60_exceptions.md R181, R182), the service of a tick
(40_pwm_tick.md R101), the gate, the latch and the counters (10_state.md R26, R27, R29), the read port and the reset draw. -/

namespace Sys2Proof.Machine

/-- Adds a record at the current position to `FAULTS` (R29): nothing ever removes one. -/
def addRecord (r : Reason) (w : Word) (s : State) : State :=
  { s with faults := s.faults ++ [⟨r, w, s.position⟩] }

/-- `raise Fault(reason, w)` (R181): the block's only exceptional event. It saves nothing but the record and enters no
handler (R180, R185). -/
def raiseFault (r : Reason) (w : Word) (s : State) : State := addRecord r w s

/-- `refuse(reason, w)` (R182): the record, and nothing else. -/
def refuse (r : Reason) (w : Word) (s : State) : State := addRecord r w s

/-- The refusal reason of a word that spells no operation (R76, R77, R182). -/
def rejectReason : Reject → Reason
  | .reservedOpcode => .reservedOpcode
  | .reservedField => .reservedField

/-- `ServiceTick()` (R101, R103): all 12 comparisons with the old `ACC`, then `ACC <- ACC +8 1`. -/
def serviceTick (s : State) : State :=
  { s with out := levels s.duty s.acc, acc := add8 s.acc 1 }

/-- `PEND <- 1` (R100). -/
def deferTick (s : State) : State := { s with pend := true }

/-- `LOST <- LOST + 1` (R100). -/
def loseTick (s : State) : State := { s with lost := s.lost + 1 }

/-- `PEND <- 0` (R141). -/
def takePending (s : State) : State := { s with pend := false }

/-- `GATE <- 0`, `WIN_STORES <- 0`: a gated window opens (R140). -/
def closeGate (s : State) : State := { s with gate := false, winStores := 0 }

/-- `GATE <- 1`, `WIN_STORES <- 0` (R141). -/
def openGate (s : State) : State := { s with gate := true, winStores := 0 }

/-- `WIN_STORES <- min(WIN_STORES + 1, 13)` (R120). -/
def countStore (s : State) : State :=
  { s with winStores := min (s.winStores + 1) (Config.windowMaxStores + 1) }

/-- `rdata <- b`, or nothing on the port (R121). -/
def returnData (b : Option Byte) (s : State) : State := { s with rdata := b }

/-- `OUT[c] <- draw` for every channel: the next free value (R210, log entry 4). -/
def drawOut (s : State) : State :=
  { s with out := Config.outDraw s.draws, draws := s.draws + 1 }

/-- The writer abandons its command and restarts (R210). -/
def rebootWriter (s : State) : State := { s with writer := Writer.boot }

/-- The registers `RESET` sets to stated values or parameters (R34, R210). -/
def resetRegisters (s : State) : State :=
  { s with duty := s.params.dutyReset, acc := s.params.accReset, gate := true, pend := false, winStores := 0 }

end Sys2Proof.Machine
end

