-- ==== Sys2Proof/Machine/DeviceReset.lean ====
section
/-! DEFINITION. The meaning of `RESET` (70_reset_and_hazards.md R210, R211). -/

namespace Sys2Proof.Machine

/-- `RESET` (R210): `LOST` and `FAULTS` are kept (R211); a deferred tick is discarded and not counted. -/
def execReset (s : State) : Host.Outcome State Fault Refusal :=
  .next (rebootWriter (drawOut (resetRegisters s)))

end Sys2Proof.Machine
end

