-- ==== Sys2Proof/Machine/DutyAccess.lean ====
section
/-! DEFINITION. The meanings of `STORE` and `LOAD` (41_duty_access.md R120, R121). The word that a fault records is the
operation's own encoding: the decoder takes no other word to the operation. -/

namespace Sys2Proof.Machine

/-- The part of `STORE` that counts a store made in a gated window, and records the 13th (R120, R221). -/
def countInWindow (w : Word) (s : State) : State :=
  if s.gate then s
  else if (countStore s).winStores > Config.windowMaxStores then raiseFault .windowOverrun w (countStore s)
  else countStore s

/-- `STORE c<ch>, v` (R120). -/
def execStore (ch : Channel) (v : Byte) (s : State) : Host.Outcome State Fault Refusal :=
  if mapped (channelAddr ch) then
    .next (countInWindow (encode (.store ch v)) (memWrite s (channelAddr ch) v))
  else .next (raiseFault .illegalChannel (encode (.store ch v)) s)

/-- `LOAD c<ch>` (R121): on an unmapped channel no `rdata` is returned. -/
def execLoad (ch : Channel) (s : State) : Host.Outcome State Fault Refusal :=
  match memRead s (channelAddr ch) with
  | some b => .next (returnData (some b) s)
  | none => .next (raiseFault .illegalChannel (encode (.load ch)) (returnData none s))

end Sys2Proof.Machine
end

