-- ==== Sys2Proof/Machine/GateControl.lean ====
section
/-! DEFINITION. The meanings of `GATE_OFF` and `GATE_ON` (42_control.md R140, R141). -/

namespace Sys2Proof.Machine

/-- `GATE_OFF` (R140): the gate does not nest, so with `GATE = 0` nothing changes. -/
def execGateOff (s : State) : Host.Outcome State Fault Refusal :=
  if s.gate then .next (closeGate s) else .next s

/-- `GATE_ON` (R141): the deferred tick, if any, is serviced inside this one operation, on the duty file as the window
left it. With `GATE = 1` nothing changes. -/
def execGateOn (s : State) : Host.Outcome State Fault Refusal :=
  if s.gate then .next s
  else if s.pend then .next (serviceTick (takePending (openGate s)))
  else .next (openGate s)

end Sys2Proof.Machine
end

