-- ==== Sys2Proof/Machine/Tick.lean ====
section
/-! DEFINITION. The meaning of `TICK` (40_pwm_tick.md R100). -/

namespace Sys2Proof.Machine

/-- `TICK` (R100): with `GATE = 1` the arrival is serviced; with `GATE = 0` it is latched or lost, as `GATED_TICK_POLICY`
says. It records no fault (R108). -/
def execTick (s : State) : Host.Outcome State Fault Refusal :=
  if s.gate then .next (serviceTick s)
  else
    match s.params.gatedTickPolicy with
    | .defer1 => if s.pend then .next (loseTick s) else .next (deferTick s)
    | .drop => .next (loseTick s)

end Sys2Proof.Machine
end

