-- ==== Sys2Proof/Machine/Dispatch.lean ====
section
/-! DEFINITION. One arm per operation of the opcode table (30_encoding.md R74). -/

namespace Sys2Proof.Machine

def exec (i : Instr) (s : State) : Host.Outcome State Fault Refusal :=
  match i with
  | .store ch v => Sys2Proof.Machine.execStore ch v s
  | .load ch => Sys2Proof.Machine.execLoad ch s
  | .gateOff => Sys2Proof.Machine.execGateOff s
  | .gateOn => Sys2Proof.Machine.execGateOn s
  | .tick => Sys2Proof.Machine.execTick s
  | .reset => Sys2Proof.Machine.execReset s

end Sys2Proof.Machine
end

