-- ==== Sys2Proof/Machine/WriterAgent.lean ====
section
/-! DEFINITION. The documented writer (45_writer_agent.md): which block operations each of its actions queues. It never
touches the block: the block changes only when a queued operation is issued. -/

namespace Sys2Proof.Machine

/-- The pseudo-operation `frame u0, ..., u11` (R82, R161): one gated window of 12 stores in channel order. -/
def frameOps (u : Frame) : List Instr :=
  .gateOff :: (List.range Config.nChannels).map (fun c => .store (BitVec.ofNat 4 c) (u.toList.getD c 0)) ++ [.gateOn]

/-- The first 12 bytes of a list as a frame, byte `k` for channel `k` (R162, R163). The writer only calls it on 12 bytes or
more: the 0 for a missing byte is never read (log entry 13). -/
def frameOf (bs : List Byte) : Frame := Vector.ofFn fun c => bs.getD c.val 0

/-- Writes byte `k` of the Pattern Store, which is filled in order (R163 step 3). -/
def storeByte (bs : List Byte) (k : Nat) (b : Byte) : List Byte := bs.take k ++ b :: bs.drop (k + 1)

/-- "Clamp to [1,10]" (R164). -/
def clampSpeed (b : Byte) : Nat := max 1 (min b.toNat 10)

/-- Enters Playing and queues frame 0 (R163 step 6, R165). -/
def startPlayback (wr : Writer) : Writer :=
  { wr with playback := .playing, phase := .command, queue := frameOps (frameOf wr.store) }

/-- Steps 5 and 6 of the upload command (R163); with `n = 0` no block operation is issued (92 D18). -/
def finishUpload (n : Nat) (wr : Writer) : Writer :=
  if n = 0 then { wr with patternLength := n, phase := .command }
  else startPlayback { wr with patternLength := n }

/-- A byte read where a command byte is expected (R162 to R167). -/
def readCommand (b : Byte) (wr : Writer) : Writer :=
  match b.toNat with
  | 0xFF => { wr with phase := .colour [] }
  | 0xFE => { wr with playback := .stopped, phase := .uploadLength }
  | 0xFD => { wr with phase := .speed }
  | 0xFC => if wr.patternLength = 0 then wr else startPlayback wr
  | 0xFB => { wr with playback := .stopped }
  | _ => wr

/-- The next payload byte of command 0xFF, after the bytes `got` (R162): the 12th completes the command. -/
def readColour (got : List Byte) (b : Byte) (wr : Writer) : Writer :=
  if got.length + 1 < Config.nChannels then { wr with phase := .colour (got ++ [b]) }
  else { wr with playback := .stopped, phase := .command, queue := frameOps (frameOf (got ++ [b])) }

/-- The length byte of command 0xFE (R163 step 2): `n = min(L, 60)`. -/
def readLength (b : Byte) (wr : Writer) : Writer :=
  if b.toNat = 0 then finishUpload 0 wr
  else { wr with phase := .uploadFrames (min b.toNat Config.maxFrames)
                            ((b.toNat - Config.maxFrames) * Config.nChannels) 0 }

/-- A frame byte of command 0xFE, the one after `read` bytes (R163 steps 3 and 4). -/
def readFrameByte (drain : Bool) (n excess read : Nat) (b : Byte) (wr : Writer) : Writer :=
  if read + 1 < n * Config.nChannels then
    { wr with store := storeByte wr.store read b, phase := .uploadFrames n excess (read + 1) }
  else if drain && decide (0 < excess) then
    { wr with store := storeByte wr.store read b, phase := .uploadDrain n excess }
  else finishUpload n { wr with store := storeByte wr.store read b }

/-- One of the last `left` bytes beyond the clamped length: discarded (R163 step 4, 92 D19). -/
def readExcess (n left : Nat) (wr : Writer) : Writer :=
  if left ≤ 1 then finishUpload n wr else { wr with phase := .uploadDrain n (left - 1) }

/-- The writer reads one byte: as a command or as payload, by what it waits for (R162 to R167). -/
def readByte (p : Params) (b : Byte) (wr : Writer) : Writer :=
  match wr.phase with
  | .command => readCommand b wr
  | .colour got => readColour got b wr
  | .uploadLength => readLength b wr
  | .uploadFrames n excess read => readFrameByte p.drainExcess n excess read b wr
  | .uploadDrain n left => readExcess n left wr
  | .speed => { wr with speed := clampSpeed b, phase := .command }

/-- A byte arrives: it is read later, in order (R171). -/
def receiveByte (b : Byte) (wr : Writer) : Writer := { wr with received := wr.received ++ [b] }

/-- The main loop's turn when it has no operation to issue: it reads its next byte, if there is one (R160, R171). -/
def readNext (p : Params) (wr : Writer) : Writer :=
  match wr.received with
  | [] => wr
  | b :: bs => readByte p b { wr with received := bs }

/-- Whether the Playback Engine can advance now: it is Playing, and the single-threaded loop is neither inside a command
nor inside an update (R160, R168, R171, R225; log entry 15). -/
def canAdvance (wr : Writer) : Bool :=
  decide (wr.playback = .playing) && decide (wr.phase = .command) && wr.queue.isEmpty

/-- A playback advance queues one `frame` of the 12 new values (R168). -/
def advancePlayback (u : Frame) (wr : Writer) : Writer :=
  if canAdvance wr then { wr with queue := frameOps u } else wr

end Sys2Proof.Machine
end

