-- ==== Sys2Proof/Machine/Interface.lean ====
section
/-! DEFINITION. One event of the trace (00_scope.md R9, 30_encoding.md R70): decoding, then the issuer check, then execution
(60_exceptions.md R184). -/

namespace Sys2Proof.Machine

/-- An operation arrives at the interface: it has the next position of the trace (R181), and `rdata` carries nothing
until it returns a byte (R70; log entries 8, 9). -/
def accept (s : State) : State := { s with position := s.position + 1, rdata := none }

/-- One transaction word, attributed to an agent: refused where it spells no operation (R76, R77), then where the agent
does not issue that operation (R75), and executed otherwise. -/
def operate (a : Agent) (w : Word) (s : State) : Host.Outcome State Fault Refusal :=
  match decode w with
  | .invalid r => .next (refuse (rejectReason r) w s)
  | .op i => if issuer i = a then exec i s else .next (refuse .wrongAgent w s)

/-- The writer's turn: it issues the operation at the head of its queue, or reads its next byte (R160). -/
def writerTurn (s : State) : Host.Outcome State Fault Refusal :=
  match s.writer.queue with
  | i :: more => operate .writer (encode i) (accept { s with writer := { s.writer with queue := more } })
  | [] => .next { s with writer := readNext s.params s.writer }

/-- One event, already taken off the trace. -/
def runEvent (e : Event) (s : State) : Host.Outcome State Fault Refusal :=
  match e with
  | .op a w => operate a w (accept s)
  | .serialByte b => .next { s with writer := receiveByte b s.writer }
  | .writerTurn => writerTurn s
  | .advance u => .next { s with writer := advancePlayback u s.writer }

/-- The next event of the trace. Where none is placed no operation comes, and the block only waits: it performs one
operation per interface event (R21; log entry 1). -/
def nextEvent (s : State) : Host.Outcome State Fault Refusal :=
  match s.trace with
  | [] => .next s
  | e :: rest => runEvent e { s with trace := rest }

/-- Places a word as the very next event, attributed to its rightful agent (log entry 12). -/
def placeWord (w : Word) (s : State) : State := { s with trace := .op (rightfulAgent w) w :: s.trace }

end Sys2Proof.Machine
end

