-- ==== Sys2Proof/WellFormed.lean ====
section
/-! DEFINITION. Which operations and trace lines are well formed (30_encoding.md R72, R78, R81, R82). -/

namespace Sys2Proof

/-- Every operand fits its field of the transaction word (R72). The operand types have exactly the fields' widths, so this
holds of every `Instr`; in particular a channel 12 to 15 is well formed (R78). -/
def Instr.wellFormed : Instr → Bool
  | .store ch v => decide (ch.toNat < 16) && decide (v.toNat < 256)
  | .load ch => decide (ch.toNat < 16)
  | .gateOff => true
  | .gateOn => true
  | .tick => true
  | .reset => true

/-- The numbers of a trace line are in the ranges R81 gives: a channel 0 to 15, a byte, a 16-bit word; a `frame` has
exactly 12 bytes (R82). -/
def TraceLine.wellFormed : TraceLine → Bool
  | .store n v => decide (n ≤ 15) && decide (v ≤ 255)
  | .load n => decide (n ≤ 15)
  | .gateOff => true
  | .gateOn => true
  | .tick => true
  | .reset => true
  | .word w => decide (w ≤ 0xFFFF)
  | .frame vs => decide (vs.length = 12) && vs.all (fun v => decide (v ≤ 255))
  | .fill v => decide (v ≤ 255)
  | .ticks _ => true

end Sys2Proof
end

