-- ==== Sys2Proof/Machine/TraceText.lean ====
section
/-! DEFINITION. The trace syntax (30_encoding.md R81) read from text, and the words and events it stands for (R81, R82). -/

namespace Sys2Proof.Machine

/-- The value of a digit in base 16, capitals or not. -/
def digitValue (c : Char) : Option Nat :=
  if '0' ≤ c ∧ c ≤ '9' then some (c.toNat - '0'.toNat)
  else if 'a' ≤ c ∧ c ≤ 'f' then some (c.toNat - 'a'.toNat + 10)
  else if 'A' ≤ c ∧ c ≤ 'F' then some (c.toNat - 'A'.toNat + 10)
  else none

/-- A run of digits below `base`, read left to right onto `acc`. -/
def readDigits (base : Nat) : Nat → List Char → Option Nat
  | acc, [] => some acc
  | acc, c :: cs =>
    match digitValue c with
    | some d => if d < base then readDigits base (acc * base + d) cs else none
    | none => none

/-- At least one digit. -/
def readNumber (base : Nat) : List Char → Option Nat
  | [] => none
  | c :: cs => readDigits base 0 (c :: cs)

/-- "a byte in decimal or `0x` hex" (R81). -/
def readValue : List Char → Option Nat
  | '0' :: 'x' :: cs => readNumber 16 cs
  | cs => readNumber 10 cs

/-- `<hex>` of `.word`, with or without `0x` (R81; log entry 18). -/
def readHex : List Char → Option Nat
  | '0' :: 'x' :: cs => readNumber 16 cs
  | cs => readNumber 16 cs

/-- `c<n>` with a decimal channel (R81). -/
def readChannel : List Char → Option Nat
  | 'c' :: cs => readNumber 10 cs
  | _ => none

/-- Splits a line at spaces and commas, a comma being a token of its own, up to a comment (R81). `cur` is the token being
read, reversed. -/
def tokens : List Char → List Char → List (List Char)
  | cur, [] => if cur.isEmpty then [] else [cur.reverse]
  | cur, c :: cs =>
    let done := if cur.isEmpty then [] else [cur.reverse]
    if c = ';' then done
    else if c = ' ' ∨ c = '\t' then done ++ tokens [] cs
    else if c = ',' then done ++ [[',']] ++ tokens [] cs
    else tokens (c :: cur) cs

/-- Values separated by commas. -/
def readValues : List (List Char) → Option (List Nat)
  | [] => none
  | [t] => (readValue t).map ([·])
  | t :: comma :: ts =>
    if comma = [','] then
      match readValue t, readValues ts with
      | some v, some vs => some (v :: vs)
      | _, _ => none
    else none

/-- What a line of a trace holds. -/
inductive LineRead where
  /-- Nothing, or a comment only. -/
  | blank
  | line (l : TraceLine)
  /-- No line of the syntax, or a number out of its range. -/
  | malformed
  deriving DecidableEq, Repr

/-- The operation a first token and the tokens after it spell (R81, R82). DESIGN CHOICE, unsafe (log entry 18): R82 does not
say how the count of `ticks k` is written, and it is read in decimal only, so `ticks 0x100` is malformed. -/
def readOperation (name : List Char) (args : List (List Char)) : Option TraceLine :=
  if name = "store".toList then
    match args with
    | [c, comma, v] =>
      match readChannel c, readValue v with
      | some n, some b => if comma = [','] then some (.store n b) else none
      | _, _ => none
    | _ => none
  else if name = "load".toList then
    match args with
    | [c] => (readChannel c).map .load
    | _ => none
  else if name = ".word".toList then
    match args with
    | [w] => (readHex w).map .word
    | _ => none
  else if name = "frame".toList then (readValues args).map .frame
  else if name = "fill".toList then
    match args with
    | [v] => (readValue v).map .fill
    | _ => none
  else if name = "ticks".toList then
    match args with
    | [k] => (readNumber 10 k).map .ticks
    | _ => none
  else if args ≠ [] then none
  else if name = "gate.off".toList then some .gateOff
  else if name = "gate.on".toList then some .gateOn
  else if name = "tick".toList then some .tick
  else if name = "reset".toList then some .reset
  else none

/-- Reads one line of a trace (R81, R82). -/
def readLine (cs : List Char) : LineRead :=
  match tokens [] cs with
  | [] => .blank
  | name :: args =>
    match readOperation name args with
    | some l => if l.wellFormed then .line l else .malformed
    | none => .malformed

/-- `0x1000 | n<<8 | v` (R81). -/
def storeWord (n v : Nat) : Word := 0x1000#16 ||| (BitVec.ofNat 16 n <<< 8) ||| BitVec.ofNat 16 v

/-- `0x2000 | n<<8` (R81). -/
def loadWord (n : Nat) : Word := 0x2000#16 ||| (BitVec.ofNat 16 n <<< 8)

/-- An operation as the event its issuer causes (R74, R75). -/
def issue (i : Instr) : Event := .op (issuer i) (encode i)

/-- The events of one trace line: R81's word, issued by the operation's issuer, and R82's expansions. A raw word goes to its
rightful agent (log entry 12). -/
def lineEvents : TraceLine → List Event
  | .store n v => [.op .writer (storeWord n v)]
  | .load n => [.op .writer (loadWord n)]
  | .gateOff => [.op .writer 0x3000]
  | .gateOn => [.op .writer 0x4000]
  | .tick => [.op .tickSource 0x8000]
  | .reset => [.op .environment 0xF000]
  | .word w => [.op (rightfulAgent (BitVec.ofNat 16 w)) (BitVec.ofNat 16 w)]
  | .frame vs => (frameOps (frameOf (vs.map (BitVec.ofNat 8)))).map issue
  | .fill v => (frameOps (Vector.replicate 12 (BitVec.ofNat 8 v))).map issue
  | .ticks k => List.replicate k (.op .tickSource 0x8000)

end Sys2Proof.Machine
end

