-- ==== Sys2Proof/Safety.lean ====
section
/-! DEFINITION. The terms in which claims about the block are stated: its invariants (10_state.md R33), a clean end
(70_reset_and_hazards.md R213), runs of operations and the ticks they service (40_pwm_tick.md), and the documented
writer's contract (45_writer_agent.md R161). -/

namespace Sys2Proof.Machine

/-- The invariants of R33. -/
structure State.Inv (s : State) : Prop where
  pendNeedsClosedGate : s.pend = true → s.gate = false
  openGateCountsNothing : s.gate = true → s.winStores = 0
  dropNeverPends : s.params.gatedTickPolicy = .drop → s.pend = false
  winStoresBounded : s.winStores ≤ 13

/-- The records of `FAULTS` stand at strictly rising positions, none beyond the current one: a set without repeats, in the
order of the trace (R29, R181). -/
structure State.FaultsInOrder (s : State) : Prop where
  rising : s.faults.Pairwise (fun r r' => r.position < r'.position)
  bounded : ∀ r ∈ s.faults, r.position ≤ s.position

/-- A finite trace ends clean exactly when this holds at its last operation (R213). -/
def State.EndsClean (s : State) : Prop := s.faults = [] ∧ s.gate = true ∧ s.pend = false

/-- What a claim about a trace's end state speaks of: `OUT`, `DUTY` and `ACC` (R213). -/
def State.endOutputs (s : State) : Levels × Frame × Byte := (s.out, s.duty, s.acc)

/-- The operations of a list, executed one after the other. -/
def execAll : List Instr → State → Host.Outcome State Fault Refusal
  | [], s => .next s
  | i :: is, s =>
    match exec i s with
    | .next t => execAll is t
    | .fault r => .fault r
    | .refused r => .refused r

/-- Whether an operation services a tick: a `TICK` with the gate open (R100), or a `GATE_ON` that ends a window in which one
was deferred (R141). -/
def services : Instr → State → Bool
  | .tick, s => s.gate
  | .gateOn, s => !s.gate && s.pend
  | .store _ _, _ => false
  | .load _, _ => false
  | .gateOff, _ => false
  | .reset, _ => false

/-- One serviced tick: the accumulator and the duty values it read, and the levels it left (R101). -/
structure Service where
  acc : Byte
  duty : Frame
  out : Levels
  deriving DecidableEq, Repr

/-- The serviced ticks of a list of operations, in order. -/
def serviceLog : List Instr → State → List Service
  | [], _ => []
  | i :: is, s =>
    match exec i s with
    | .next t => (if services i s then [⟨s.acc, s.duty, t.out⟩] else []) ++ serviceLog is t
    | .fault _ => []
    | .refused _ => []

/-- A PWM period: 256 consecutive serviced ticks that start at `ACC = 0` (Glossary, R106). -/
def IsPeriod (log : List Service) : Prop := log.length = 256 ∧ (log.head?.map Service.acc) = some 0

/-- How many of some serviced ticks left channel `c` high. -/
def highCount (c : Fin 12) (log : List Service) : Nat := log.countP (fun r => r.out[c])

/-- The value channel `c` holds after some operations, by the rule of R58: that of the last `STORE` to it, or the reset
value where a `RESET` came later, or else `old`. -/
def lastStored (p : Params) (c : Fin 12) (old : Byte) : List Instr → Byte
  | [] => old
  | .store ch v :: is => lastStored p c (if ch.toNat = c.val then v else old) is
  | .reset :: is => lastStored p c p.dutyReset[c] is
  | .load _ :: is => lastStored p c old is
  | .gateOff :: is => lastStored p c old is
  | .gateOn :: is => lastStored p c old is
  | .tick :: is => lastStored p c old is

/-- How many operations of a list are `TICK` arrivals. -/
def tickCount (is : List Instr) : Nat := is.count .tick

/-- Whether an operation is a store that `WIN_STORES` counts in a window: one of a channel 0 to 11 (R120, R221). -/
def storesInRange : Instr → Bool
  | .store ch _ => decide (ch.toNat < 12)
  | .load _ => false
  | .gateOff => false
  | .gateOn => false
  | .tick => false
  | .reset => false

/-- Whether an operation addresses a channel 12 to 15, and so records `ILLEGAL_CHANNEL` (R78). -/
def missesTheDutyFile : Instr → Bool
  | .store ch _ => decide (12 ≤ ch.toNat)
  | .load ch => decide (12 ≤ ch.toNat)
  | .gateOff => false
  | .gateOn => false
  | .tick => false
  | .reset => false

/-- A list of operations that may stand in a gated window after its `GATE_OFF` (Glossary "Gated window"). -/
def staysGated (is : List Instr) : Prop := Instr.gateOn ∉ is ∧ Instr.reset ∉ is

/-- An event of a system whose only writer is the documented one: well-formed ticks and resets from their own agents, and
the writer's own events (R160, R161). -/
def documentedEvent : Event → Bool
  | .op .tickSource w => decide (w = encode .tick)
  | .op .environment w => decide (w = encode .reset)
  | .op .writer _ => false
  | .serialByte _ => true
  | .writerTurn => true
  | .advance _ => true

/-- The window of a `frame u` is open, `k` of its 12 stores are done, and the writer has exactly the rest of it to issue
(R161). -/
structure InsideFrame (u : Frame) (k : Nat) (s : State) : Prop where
  storesLeft : k ≤ 12
  queueIsRest : s.writer.queue = (frameOps u).drop (k + 1)
  closed : s.gate = false
  counted : s.winStores = k
  written : ∀ c : Fin 12, c.val < k → s.duty[c] = u[c]

/-- Between updates: the gate is open, no store is counted, and the writer has nothing to issue or one whole frame (R161). -/
structure BetweenFrames (s : State) : Prop where
  opened : s.gate = true
  noneCounted : s.winStores = 0
  queueIsFrame : s.writer.queue = [] ∨ ∃ u, s.writer.queue = frameOps u

/-- The documented writer's contract (R161, R169): it is between updates or inside one, and while it waits for payload
bytes it has nothing to issue and the gate is open. -/
structure WriterContract (s : State) : Prop where
  whereItIs : BetweenFrames s ∨ ∃ u k, InsideFrame u k s
  waitsWithOpenGate : s.writer.phase ≠ .command → s.writer.queue = [] ∧ s.gate = true

/-- The operation that the next step executes, if it executes one (R184). -/
def delivered (s : State) : Option Instr :=
  match s.trace with
  | [] => none
  | .op a w :: _ =>
    match decode w with
    | .op i => if issuer i = a then some i else none
    | .invalid _ => none
  | .writerTurn :: _ => s.writer.queue.head?
  | .serialByte _ :: _ => none
  | .advance _ :: _ => none

/-- Weak fairness of the tick source over an infinite trace (R190): `TICK` arrivals occur infinitely often. -/
def TickFair (σ : Nat → Event) : Prop := ∀ n, ∃ m, n ≤ m ∧ σ m = .op .tickSource (encode .tick)

end Sys2Proof.Machine
end

