-- ==== Sys2Proof/Certificates/Slice0/Obligations.lean ====
section
/-! DEFINITION. The statements about the block, one per rule or group of rules of spec/, for the provers. -/

open Sys2Proof Sys2Proof.Machine

section encoding

/-- R74, R80, R81: decoding the word of a well-formed operation gives the operation back, at every operand. -/
def Obligations.DecodeInvertsEncode : Prop :=
  ∀ i : Instr, i.wellFormed = true → decode (encode i) = .op i

/-- R80, R79: an operation has one word only, so no bit of a word that decodes is dropped. -/
def Obligations.EncodeInvertsDecode : Prop :=
  ∀ (w : Word) (i : Instr), decode w = .op i → encode i = w

/-- Words written out in 95_test_vectors.md section 2.1 and rule R81 decode as it says. -/
def Obligations.VectorWordsDecode : Prop :=
  decode 0x1BFF = .op (.store 11 0xFF) ∧ decode 0x2B00 = .op (.load 11) ∧ decode 0x3000 = .op .gateOff ∧
  decode 0x4000 = .op .gateOn ∧ decode 0x8000 = .op .tick ∧ decode 0xF000 = .op .reset ∧
  decode 0x1FFF = .op (.store 15 0xFF) ∧ decode 0x2B01 = .invalid .reservedField ∧
  decode 0x3100 = .invalid .reservedField ∧ decode 0x0000 = .invalid .reservedOpcode ∧
  decode 0xE0FF = .invalid .reservedOpcode

/-- R72, R73, R80: the decoder as arithmetic on the word's number, whose fields are its top 4 bits, the next 4 and the last 8. -/
def Obligations.DecoderReadsTheThreeFields : Prop :=
  ∀ w : Word,
    let op := w.toNat / 4096
    let ch := BitVec.ofNat 4 (w.toNat / 256 % 16)
    let v := BitVec.ofNat 8 (w.toNat % 256)
    (op = 0x1 → decode w = .op (.store ch v)) ∧
    (op = 0x2 → decode w = if w.toNat % 256 = 0 then .op (.load ch) else .invalid .reservedField) ∧
    (op = 0x3 → decode w = if w.toNat % 4096 = 0 then .op .gateOff else .invalid .reservedField) ∧
    (op = 0x4 → decode w = if w.toNat % 4096 = 0 then .op .gateOn else .invalid .reservedField) ∧
    (op = 0x8 → decode w = if w.toNat % 4096 = 0 then .op .tick else .invalid .reservedField) ∧
    (op = 0xF → decode w = if w.toNat % 4096 = 0 then .op .reset else .invalid .reservedField) ∧
    (op ∉ [0x1, 0x2, 0x3, 0x4, 0x8, 0xF] → decode w = .invalid .reservedOpcode)

/-- R76: exactly the words with a reserved `OP` are refused as `RESERVED_OPCODE`, and the refusal changes nothing but
`FAULTS`; so a step at such a word only takes it off the trace and adds that record at the word's own position. -/
def Obligations.ReservedOpcodeIsRefused : Prop :=
  ∀ w : Word,
    (decode w = .invalid .reservedOpcode ↔
      w.toNat / 4096 ∈ [0x0, 0x5, 0x6, 0x7, 0x9, 0xA, 0xB, 0xC, 0xD, 0xE]) ∧
    ∀ (a : Agent) (s : State), w.toNat / 4096 ∈ [0x0, 0x5, 0x6, 0x7, 0x9, 0xA, 0xB, 0xC, 0xD, 0xE] →
      operate a w s = .next { s with faults := s.faults ++ [⟨.reservedOpcode, w, s.position⟩] } ∧
      ∀ rest, s.trace = .op a w :: rest → ∃ t, step s = .next t ∧
        t = { s with trace := rest, position := t.position, rdata := t.rdata,
                     faults := s.faults ++ [⟨.reservedOpcode, w, t.position⟩] }

/-- R77: a `LOAD` with a value, or an operation without operands with any operand bit, is refused as `RESERVED_FIELD`, and
the refusal changes nothing but `FAULTS`; so a step at such a word only takes it off the trace and adds that record at the
word's own position. -/
def Obligations.ReservedFieldIsRefused : Prop :=
  ∀ w : Word,
    ((w.toNat / 4096 = 0x2 ∧ w.toNat % 256 ≠ 0) ∨
      (w.toNat / 4096 ∈ [0x3, 0x4, 0x8, 0xF] ∧ w.toNat % 4096 ≠ 0)) →
    decode w = .invalid .reservedField ∧
    ∀ (a : Agent) (s : State),
      operate a w s = .next { s with faults := s.faults ++ [⟨.reservedField, w, s.position⟩] } ∧
      ∀ rest, s.trace = .op a w :: rest → ∃ t, step s = .next t ∧
        t = { s with trace := rest, position := t.position, rdata := t.rdata,
                     faults := s.faults ++ [⟨.reservedField, w, t.position⟩] }

/-- R75: each operation has one issuer, and a word that any other agent sends is refused as `WRONG_AGENT`, changing nothing
but `FAULTS`; so a step at such a word only takes it off the trace and adds that record at the word's own position. -/
def Obligations.WrongAgentIsRefused : Prop :=
  (∀ ch v, issuer (.store ch v) = .writer) ∧ (∀ ch, issuer (.load ch) = .writer) ∧
  issuer .gateOff = .writer ∧ issuer .gateOn = .writer ∧ issuer .tick = .tickSource ∧ issuer .reset = .environment ∧
  ∀ (i : Instr) (a : Agent) (s : State), a ≠ issuer i →
    operate a (encode i) s = .next { s with faults := s.faults ++ [⟨.wrongAgent, encode i, s.position⟩] } ∧
    ∀ rest, s.trace = .op a (encode i) :: rest → ∃ t, step s = .next t ∧
      t = { s with trace := rest, position := t.position, rdata := t.rdata,
                   faults := s.faults ++ [⟨.wrongAgent, encode i, t.position⟩] }

/-- R53: a word kept as bytes is its more significant byte, then its less significant one, and a trace kept as bytes is read
back as the same words. -/
def Obligations.TraceBytesReadBack : Prop :=
  (∀ w : Word, traceBytes [w] = [BitVec.ofNat 8 (w.toNat / 256), BitVec.ofNat 8 (w.toNat % 256)]) ∧
  ∀ ws : List Word, traceWords (traceBytes ws) = some ws

/-- R81: the words of the trace syntax, `0x1000 | n<<8 | v` and `0x2000 | n<<8`, decode to the operations the lines name. -/
def Obligations.TraceLinesSpellTheirOperations : Prop :=
  ∀ n v : Nat, n ≤ 15 → v ≤ 255 →
    decode (storeWord n v) = .op (.store (BitVec.ofNat 4 n) (BitVec.ofNat 8 v)) ∧
    decode (loadWord n) = .op (.load (BitVec.ofNat 4 n))

end encoding

section steps

/-- R9, R70, R184: when the next event is a word that decodes to an operation, sent by that operation's issuer, the step is
the operation's meaning, on the state with the event taken off, the position moved on and `rdata` empty (the last two the
model's choices, log entries 8 and 9); when the word spells no operation, or another agent sent it, that state with the
refusal's record is the step's whole answer (R182). -/
def Obligations.StepRunsTheDecodedOperation : Prop :=
  ∀ (s : State) (a : Agent) (w : Word) (rest : List Event), s.trace = .op a w :: rest →
    let s' := { s with trace := rest, position := s.position + 1, rdata := none }
    (∀ i, decode w = .op i → issuer i = a → step s = exec i s') ∧
    (∀ i, decode w = .op i → issuer i ≠ a →
      step s = .next { s' with faults := s.faults ++ [⟨.wrongAgent, w, s.position + 1⟩] }) ∧
    (decode w = .invalid .reservedOpcode →
      step s = .next { s' with faults := s.faults ++ [⟨.reservedOpcode, w, s.position + 1⟩] }) ∧
    (decode w = .invalid .reservedField →
      step s = .next { s' with faults := s.faults ++ [⟨.reservedField, w, s.position + 1⟩] })

/-- A placed word is the very next operation, and nothing of the trace after it is touched (log entries 1, 8, 9, 12). -/
def Obligations.PlacedWordRunsNext : Prop :=
  ∀ (s : State) (nbits w : Nat) (i : Instr), decodeTableWord nbits w = some i →
    step (s.withFetchWord nbits w) = exec i { s with position := s.position + 1, rdata := none }

/-- R160, R171: at the writer's turn, the operation at the head of its queue is the one that runs; with nothing to issue,
the writer reads the oldest byte it has received, if there is one, and the block does not change. A byte that arrives is
received after the ones before it, and changes nothing else. -/
def Obligations.WriterTurnRunsTheQueuedOperation : Prop :=
  ∀ (s : State) (rest : List Event),
    (∀ i more, s.trace = .writerTurn :: rest → s.writer.queue = i :: more → issuer i = .writer →
      step s = exec i { s with trace := rest, position := s.position + 1, rdata := none,
                               writer := { s.writer with queue := more } }) ∧
    (∀ b bs, s.trace = .writerTurn :: rest → s.writer.queue = [] → s.writer.received = b :: bs →
      step s = .next { s with trace := rest, writer := readByte s.params b { s.writer with received := bs } }) ∧
    (s.trace = .writerTurn :: rest → s.writer.queue = [] → s.writer.received = [] →
      step s = .next { s with trace := rest }) ∧
    (∀ b, s.trace = .serialByte b :: rest →
      step s = .next { s with trace := rest, writer := { s.writer with received := s.writer.received ++ [b] } })

/-- R180, R181, R182: the machine never stops: every step of every state ends in a next state. -/
def Obligations.EveryStepHasANextState : Prop :=
  ∀ s : State, ∃ t, step s = .next t

/-- R21: with no event placed, no operation is performed (the model's choice, log entry 1). -/
def Obligations.NoEventNoChange : Prop :=
  ∀ s : State, s.trace = [] → step s = .next s

end steps

section duty

/-- R120: everything `STORE` does, on every channel, with the gate open and closed. -/
def Obligations.StoreFollowsItsRule : Prop :=
  ∀ (ch : Channel) (v : Byte) (s : State),
    (12 ≤ ch.toNat →
      exec (.store ch v) s =
        .next { s with faults := s.faults ++ [⟨.illegalChannel, encode (.store ch v), s.position⟩] }) ∧
    ∀ h : ch.toNat < 12,
      (s.gate = true → exec (.store ch v) s = .next { s with duty := s.duty.set ch.toNat v }) ∧
      (s.gate = false → s.winStores < 12 →
        exec (.store ch v) s =
          .next { s with duty := s.duty.set ch.toNat v, winStores := s.winStores + 1 }) ∧
      (s.gate = false → 12 ≤ s.winStores →
        exec (.store ch v) s =
          .next { s with duty := s.duty.set ch.toNat v, winStores := 13,
                         faults := s.faults ++ [⟨.windowOverrun, encode (.store ch v), s.position⟩] })

/-- R120: a `STORE` to a channel 0 to 11 that is not the 13th of its window completes: the channel holds the value, and no
fault is recorded. -/
def Obligations.StoreCompletes : Prop :=
  ∀ (ch : Channel) (v : Byte) (s : State),
    channelAddr ch < 12 → (s.gate = true ∨ s.winStores < 12) →
    ∃ t, exec (.store ch v) s = .next t ∧ memRead t (channelAddr ch) = some v ∧ t.faults = s.faults

/-- R121: everything `LOAD` does: the byte on `rdata` and nothing else, or the fault record and no `rdata`. -/
def Obligations.LoadFollowsItsRule : Prop :=
  ∀ (ch : Channel) (s : State),
    (∀ h : ch.toNat < 12, exec (.load ch) s = .next { s with rdata := some s.duty[ch.toNat] }) ∧
    (12 ≤ ch.toNat →
      exec (.load ch) s =
        .next { s with rdata := none,
                       faults := s.faults ++ [⟨.illegalChannel, encode (.load ch), s.position⟩] })

/-- R78: a `STORE` or `LOAD` word with `CH` from 12 to 15 spells an operation; executing it records `ILLEGAL_CHANNEL` with the
word and changes no `DUTY` register. -/
def Obligations.ChannelOutOfRangeFaults : Prop :=
  ∀ (w : Word) (s : State),
    12 ≤ w.toNat / 256 % 16 → (w.toNat / 4096 = 0x1 ∨ (w.toNat / 4096 = 0x2 ∧ w.toNat % 256 = 0)) →
    ∃ i t, decode w = .op i ∧ operate .writer w s = .next t ∧
      t.faults = s.faults ++ [⟨.illegalChannel, w, s.position⟩] ∧ t.duty = s.duty

/-- R120, R56: what `STORE` leaves alone. Every byte but the one at `channelAddr ch` reads as before, every byte where that
address is unmapped; nothing else changes but `WIN_STORES` and `FAULTS`. -/
def Obligations.StoreFrame : Prop :=
  ∀ (ch : Channel) (v : Byte) (s t : State), exec (.store ch v) s = .next t →
    (∀ a, a ≠ channelAddr ch → memRead t a = memRead s a) ∧
    (12 ≤ channelAddr ch → ∀ a, memRead t a = memRead s a) ∧
    (s.gate = true → t.winStores = s.winStores) ∧
    t = { s with duty := t.duty, winStores := t.winStores, faults := t.faults }

/-- R121, R56: what `LOAD` leaves alone: every byte, and everything else but `rdata` and, on a channel 12 to 15, `FAULTS`. -/
def Obligations.LoadFrame : Prop :=
  ∀ (ch : Channel) (s t : State), exec (.load ch) s = .next t →
    (∀ a, memRead t a = memRead s a) ∧
    (channelAddr ch < 12 → t.faults = s.faults) ∧
    t = { s with rdata := t.rdata, faults := t.faults }

/-- R58: after any operations, a channel holds the value of the last `STORE` to it, or the reset value since the last
`RESET`: a `LOAD` returns it, and a serviced tick compares it. -/
def Obligations.ReadsSeeTheLastStore : Prop :=
  ∀ (is : List Instr) (s t : State) (c : Fin 12), execAll is s = .next t →
    let b := lastStored s.params c s.duty[c] is
    exec (.load (BitVec.ofNat 4 c)) t = .next { t with rdata := some b } ∧
    ∀ (i : Instr) (u : State), services i t = true → exec i t = .next u →
      u.out[c] = decide (b.toNat > t.acc.toNat)

/-- R56: a `STORE` done twice leaves the state that doing it once leaves, but for `WIN_STORES` and the records. -/
def Obligations.StoreTwiceIsStoreOnce : Prop :=
  ∀ (ch : Channel) (v : Byte) (s t u : State),
    exec (.store ch v) s = .next t → exec (.store ch v) t = .next u →
    u = { t with winStores := u.winStores, faults := u.faults }

/-- R221: in any gated window, ticks and further `GATE_OFF`s in it included, `WINDOW_OVERRUN` is recorded for the 13th
store of channels 0 to 11 and each one after it, and for nothing else; loads are not counted. Where every channel is 0 to
11, nothing is recorded exactly when the stores are at most 12, and no record has another reason. -/
def Obligations.OverrunExactlyAtTheThirteenthStore : Prop :=
  ∀ (is : List Instr) (s t : State),
    staysGated is → s.gate = false → s.winStores = 0 → execAll is s = .next t →
    ∃ new, t.faults = s.faults ++ new ∧
      new.countP (fun r => decide (r.reason = .windowOverrun)) = is.countP storesInRange - 12 ∧
      ((∀ i ∈ is, missesTheDutyFile i = false) →
        (t.faults = s.faults ↔ is.countP storesInRange ≤ 12) ∧ ∀ r ∈ new, r.reason = .windowOverrun)

/-- R222: after a `STORE` the outputs stay as they are, a `LOAD` sees the new value at once, and the next serviced tick, if
no other `STORE` to the channel and no `RESET` comes before it, compares the new value. -/
def Obligations.StoreReachesTheOutputAtTheNextService : Prop :=
  ∀ (ch : Channel) (v : Byte) (s t : State), ∀ h : ch.toNat < 12, exec (.store ch v) s = .next t →
    t.out = s.out ∧ exec (.load ch) t = .next { t with rdata := some v } ∧
    ∀ (is : List Instr) (r : Service) (rs : List Service),
      (∀ x, Instr.store ch x ∉ is) → Instr.reset ∉ is → serviceLog is t = r :: rs →
      r.out[ch.toNat] = decide (v.toNat > r.acc.toNat)

end duty

section gate

/-- R140: everything `GATE_OFF` does; and no tick is serviced until the next `GATE_ON` or `RESET`. -/
def Obligations.GateOffFollowsItsRule : Prop :=
  ∀ s : State,
    (s.gate = true → exec .gateOff s = .next { s with gate := false, winStores := 0 }) ∧
    (s.gate = false → exec .gateOff s = .next s) ∧
    ∀ (is : List Instr) (t : State), staysGated is → exec .gateOff s = .next t → serviceLog is t = []

/-- R141: everything `GATE_ON` does; a deferred tick is serviced inside it, on the duty file as the window left it. -/
def Obligations.GateOnFollowsItsRule : Prop :=
  ∀ s : State,
    (s.gate = true → exec .gateOn s = .next s) ∧
    (s.gate = false → s.pend = false → exec .gateOn s = .next { s with gate := true, winStores := 0 }) ∧
    (s.gate = false → s.pend = true →
      exec .gateOn s =
        .next { s with gate := true, winStores := 0, pend := false,
                       out := Vector.ofFn fun c => decide (s.duty[c].toNat > s.acc.toNat),
                       acc := s.acc + 1 }) ∧
    (s.Inv → s.params.gatedTickPolicy = .drop → s.pend = false ∧ services .gateOn s = false)

/-- R26, R27, R30: `GATE` and `PEND` are written only by the operations their rules list, and `PEND` is set only by a `TICK`
with the gate closed under `DEFER1`. -/
def Obligations.GateAndPendHaveTheirWriters : Prop :=
  ∀ (i : Instr) (s t : State), exec i s = .next t →
    (t.gate ≠ s.gate → i = .gateOff ∨ i = .gateOn ∨ i = .reset) ∧
    (t.pend ≠ s.pend → i = .tick ∨ i = .gateOn ∨ i = .reset) ∧
    (s.pend = false → t.pend = true → i = .tick ∧ s.gate = false ∧ s.params.gatedTickPolicy = .defer1)

/-- R100, R140, R141: what `GATE_OFF`, `GATE_ON` and `TICK` leave alone. -/
def Obligations.GateAndTickFrames : Prop :=
  ∀ (i : Instr) (s t : State), (i = .gateOff ∨ i = .gateOn ∨ i = .tick) → exec i s = .next t →
    (∀ a, memRead t a = memRead s a) ∧
    (i = .gateOff → t = { s with gate := t.gate, winStores := t.winStores }) ∧
    (i = .gateOn →
      t = { s with gate := t.gate, winStores := t.winStores, pend := t.pend, out := t.out, acc := t.acc }) ∧
    (i = .tick → t = { s with out := t.out, acc := t.acc, pend := t.pend, lost := t.lost }) ∧
    (i = .tick → s.gate = true → t = { s with out := t.out, acc := t.acc }) ∧
    (i = .tick → s.gate = false → t = { s with pend := t.pend, lost := t.lost })

/-- R142: a gated update is seen all or not at all. The serviced ticks of a trace up to the end of the window are those
before its `GATE_OFF`; the first service after it, the deferred one in its `GATE_ON` or a later one, reads the duty file as
the window left it, with all of its stores; and a window that ends with `RESET` leaves `DUTY_RESET`. -/
def Obligations.GatedUpdateIsAllOrNothing : Prop :=
  ∀ (before window : List Instr) (s₀ s t : State),
    execAll before s₀ = .next s → s.gate = true → staysGated window →
    execAll (.gateOff :: window) s = .next t →
    serviceLog (before ++ .gateOff :: window) s₀ = serviceLog before s₀ ∧
    serviceLog (.gateOff :: window) s = [] ∧
    (t.pend = true → ∀ after, ((serviceLog (.gateOn :: after) t).head?.map Service.duty) = some t.duty) ∧
    (∀ (after : List Instr) (r : Service), (∀ ch v, Instr.store ch v ∉ after) → Instr.reset ∉ after →
      (serviceLog (.gateOn :: after) t).head? = some r → r.duty = t.duty) ∧
    ∀ u, exec .reset t = .next u → u.duty = t.params.dutyReset

/-- R224: while a window stays open no tick is serviced, `OUT` and `ACC` freeze, every arrival after the one that may be
latched is lost, and the trace does not end clean. -/
def Obligations.UnclosedWindowFreezesTheOutputs : Prop :=
  ∀ (is : List Instr) (s t : State), s.gate = false → staysGated is → execAll is s = .next t →
    serviceLog is s = [] ∧ t.out = s.out ∧ t.acc = s.acc ∧ ¬ t.EndsClean ∧
    t.lost + t.pend.toNat = s.lost + s.pend.toNat + tickCount is

/-- R143: a gated window moves `ACC` by one step at most; under `DEFER1` all its arrivals but one are lost, under `DROP` all. -/
def Obligations.WindowMovesTheRampAtMostOnce : Prop :=
  ∀ (window : List Instr) (s t : State),
    s.Inv → s.gate = true → staysGated window → execAll (.gateOff :: window ++ [.gateOn]) s = .next t →
    (s.params.gatedTickPolicy = .defer1 →
      t.acc = (if tickCount window = 0 then s.acc else s.acc + 1) ∧ t.lost = s.lost + (tickCount window - 1)) ∧
    (s.params.gatedTickPolicy = .drop → t.acc = s.acc ∧ t.lost = s.lost + tickCount window)

end gate

section pwm

/-- R100: everything `TICK` does, with the gate open and closed, under both policies. -/
def Obligations.TickFollowsItsRule : Prop :=
  ∀ s : State,
    (s.gate = true →
      exec .tick s =
        .next { s with out := Vector.ofFn fun c => decide (s.duty[c].toNat > s.acc.toNat), acc := s.acc + 1 }) ∧
    (s.gate = false → s.params.gatedTickPolicy = .defer1 → s.pend = false →
      exec .tick s = .next { s with pend := true }) ∧
    (s.gate = false → s.params.gatedTickPolicy = .defer1 → s.pend = true →
      exec .tick s = .next { s with lost := s.lost + 1 }) ∧
    (s.gate = false → s.params.gatedTickPolicy = .drop → exec .tick s = .next { s with lost := s.lost + 1 })

/-- R101, R102, R103: a service sets each level by a strict unsigned comparison with the old `ACC`, steps `ACC` modulo 256,
and writes nothing else. -/
def Obligations.ServiceComparesThenSteps : Prop :=
  ∀ s : State,
    (∀ c : Fin 12, (serviceTick s).out[c] = true ↔ s.duty[c].toNat > s.acc.toNat) ∧
    (serviceTick s).acc.toNat = (s.acc.toNat + 1) % 256 ∧
    serviceTick s = { s with out := (serviceTick s).out, acc := (serviceTick s).acc }

/-- R104: every channel of every serviced tick is compared with the same `ACC`, so equal duty values give equal levels. -/
def Obligations.EqualDutiesGiveEqualLevels : Prop :=
  ∀ (is : List Instr) (s : State), ∀ r ∈ serviceLog is s,
    (∀ c : Fin 12, r.out[c] = decide (r.duty[c].toNat > r.acc.toNat)) ∧
    ∀ c c' : Fin 12, r.duty[c] = r.duty[c'] → r.out[c] = r.out[c']

/-- R105: only a serviced tick and `RESET` change `OUT`. -/
def Obligations.OutputsHoldBetweenServices : Prop :=
  ∀ (i : Instr) (s t : State), exec i s = .next t → services i s = false → i ≠ .reset → t.out = s.out

/-- R24: `ACC` steps by one on a serviced tick, takes `ACC_RESET` on `RESET`, and changes nowhere else. -/
def Obligations.AccStepsOnlyOnServices : Prop :=
  ∀ (i : Instr) (s t : State), exec i s = .next t →
    t.acc = if i = .reset then s.params.accReset else if services i s then s.acc + 1 else s.acc

/-- R106: over a PWM period in which a channel's duty value stays `d`, the services read `ACC` = 0, 1, ..., 255, and the
channel is high on exactly the first `d` of them. -/
def Obligations.DutyRatioOverAPeriod : Prop :=
  ∀ (is : List Instr) (s : State) (c : Fin 12) (d : Byte),
    Instr.reset ∉ is → IsPeriod (serviceLog is s) → (∀ r ∈ serviceLog is s, r.duty[c] = d) →
    highCount c (serviceLog is s) = d.toNat ∧
    ∀ (k : Nat) (r : Service), (serviceLog is s)[k]? = some r →
      r.acc.toNat = k ∧ (r.out[c] = true ↔ k < d.toNat)

/-- R107: from one service to the next, with a constant duty value `d` of at least 1, a channel rises exactly where `ACC` = 0 is
read and falls exactly where `ACC` = `d` is read; with `d` = 0 it stays low. -/
def Obligations.EdgesOfAConstantDuty : Prop :=
  ∀ (is : List Instr) (s : State) (c : Fin 12) (d : Byte),
    Instr.reset ∉ is → (∀ r ∈ serviceLog is s, r.duty[c] = d) →
    ∀ (k : Nat) (r r' : Service), (serviceLog is s)[k]? = some r → (serviceLog is s)[k + 1]? = some r' →
      (d ≠ 0 → ((r.out[c] = false ∧ r'.out[c] = true) ↔ r'.acc = 0) ∧
        ((r.out[c] = true ∧ r'.out[c] = false) ↔ r'.acc = d)) ∧
      (d = 0 → r.out[c] = false ∧ r'.out[c] = false)

/-- R108: `TICK` completes in every state and records no fault, and neither does a service. -/
def Obligations.TickNeverFaults : Prop :=
  ∀ s : State, (serviceTick s).faults = s.faults ∧ ∃ t, exec .tick s = .next t ∧ t.faults = s.faults

/-- R109: when a channel's duty value changes from `d1` to `d2` after the first `k` services of a period, the channel is high on
`min(d1, k) + max(0, d2 - k)` of the 256. -/
def Obligations.DutyChangeInMidPeriod : Prop :=
  ∀ (is : List Instr) (s : State) (c : Fin 12) (d1 d2 : Byte) (k : Nat),
    Instr.reset ∉ is → IsPeriod (serviceLog is s) → k ≤ 256 →
    (∀ (j : Nat) (r : Service), (serviceLog is s)[j]? = some r → r.duty[c] = if j < k then d1 else d2) →
    highCount c (serviceLog is s) = min d1.toNat k + (d2.toNat - k)

/-- R143: since a `RESET`, the serviced ticks are the arrivals less the lost ones and the one pending, and `ACC` is `ACC_RESET`
plus the serviced ticks, modulo 256. -/
def Obligations.TicksAreAccountedFor : Prop :=
  ∀ (is : List Instr) (s₀ s t : State),
    exec .reset s₀ = .next s → Instr.reset ∉ is → execAll is s = .next t →
    (serviceLog is s).length + (t.lost - s.lost) + t.pend.toNat = tickCount is ∧ s.lost ≤ t.lost ∧
    t.acc.toNat = (t.params.accReset.toNat + (serviceLog is s).length) % 256

/-- R123: without the gate a tick can fall between two stores of one update; the model admits the torn observation and
records no fault. -/
def Obligations.UngatedUpdateCanTear : Prop :=
  ∃ t, execAll [.store 0 0xFF, .tick, .store 1 0xFF] State.reset = .next t ∧
    serviceLog [.store 0 0xFF, .tick, .store 1 0xFF] State.reset =
      [⟨0x00, State.reset.duty.set 0 0xFF, t.out⟩] ∧
    t.duty = (State.reset.duty.set 0 0xFF).set 1 0xFF ∧ t.out[0] = true ∧ t.out[1] = false ∧ t.faults = []

end pwm

section deviceReset

/-- R210: `RESET` completes in every state with the registers at their parameters, `OUT` at a draw, the gate open, nothing
pending or counted, the writer Stopped with an empty pattern and no command in progress, and everything else unchanged. -/
def Obligations.ResetFollowsItsRule : Prop :=
  ∀ s : State, ∃ t n, exec .reset s = .next t ∧
    t = { s with duty := s.params.dutyReset, acc := s.params.accReset, out := Config.outDraw n,
                 gate := true, pend := false, winStores := 0, writer := t.writer, draws := t.draws } ∧
    t.writer.playback = .stopped ∧ t.writer.patternLength = 0 ∧ t.writer.phase = .command ∧ t.writer.queue = []

/-- R210: the bytes and fields `RESET` leaves or sets, as a frame: every mapped byte reads as its reset value. -/
def Obligations.ResetFrame : Prop :=
  ∀ s t : State, exec .reset s = .next t →
    (∀ a, memRead t a = memRead { s with duty := s.params.dutyReset } a) ∧
    t.lost = s.lost ∧ t.faults = s.faults ∧ t.rdata = s.rdata ∧ t.position = s.position ∧ t.trace = s.trace ∧
    t.params = s.params

/-- R211: `RESET` keeps `FAULTS` and `LOST`, so a trace with a record does not end clean after it. -/
def Obligations.ResetKeepsFaultsAndLost : Prop :=
  ∀ s t : State, exec .reset s = .next t →
    t.faults = s.faults ∧ t.lost = s.lost ∧ (s.faults ≠ [] → ¬ t.EndsClean)

/-- R212: the initial state is the one a `RESET` leaves from `LOST` = 0 and `FAULTS` empty (with free value number 0 and the
interface's starting values of log entries 1, 4, 8, 9, 13, 14). -/
def Obligations.InitialStateIsAsAfterReset : Prop :=
  ∀ (p : Params) (s : State), s.params = p → s.lost = 0 → s.faults = [] → s.draws = 0 → s.rdata = none →
    s.position = 0 → s.trace = [] → exec .reset s = .next (State.resetWith p)

/-- R215: after the first serviced tick since a `RESET` nothing depends on the levels that were drawn: two runs that differ
only in `OUT` end in the same state once they have serviced a tick. -/
def Obligations.FirstServiceForgetsTheDraw : Prop :=
  ∀ (is : List Instr) (s t : State) (o : Levels),
    Instr.reset ∉ is → serviceLog is s ≠ [] → execAll is s = .next t → execAll is { s with out := o } = .next t

end deviceReset

section invariants

/-- R33, R34: the invariants hold right after reset, whatever the parameters. -/
def Obligations.InvariantsHoldAfterReset : Prop := ∀ p : Params, (State.resetWith p).Inv

/-- R33: every step of every state that meets the invariants keeps them. -/
def Obligations.StepKeepsTheInvariants : Prop :=
  ∀ s t : State, s.Inv → step s = .next t → t.Inv

/-- R33: every state that any trace reaches, from reset with any parameters, satisfies the invariants. -/
def Obligations.EveryReachableStateMeetsTheInvariants : Prop :=
  ∀ (p : Params) (trace : List Event) (k : Nat) (t : State),
    Host.Core.run Sys2Proof.core k ({ State.resetWith p with trace := trace } : State) = .next t → t.Inv

/-- R29, R181 (positions as in log entry 8): a step keeps the records of `FAULTS` in trace order, each position at most once. -/
def Obligations.StepKeepsFaultsInOrder : Prop :=
  ∀ s t : State, s.FaultsInOrder → step s = .next t → t.FaultsInOrder

/-- R29, R181, R182: a step never removes a record, and adds one at most, at its own position. -/
def Obligations.FaultRecordsAreNeverRemoved : Prop :=
  ∀ s t : State, step s = .next t →
    ∃ new, t.faults = s.faults ++ new ∧ new.length ≤ 1 ∧ ∀ r ∈ new, r.position = t.position

/-- R22, R188: only `STORE` and `RESET` change a duty register. -/
def Obligations.DutyHasTwoWriters : Prop :=
  ∀ (i : Instr) (s t : State), exec i s = .next t → t.duty ≠ s.duty → i = .reset ∨ ∃ ch v, i = .store ch v

/-- R6: the parameters are arguments: no step changes one. -/
def Obligations.ParametersNeverChange : Prop :=
  ∀ s t : State, step s = .next t → t.params = s.params

end invariants

section writer

/-- R82, R161: a `frame` is 14 operations: `GATE_OFF`, the 12 stores in channel order, `GATE_ON`. Run with the gate open it
stores all 12 values, ends with the gate open, and records nothing. -/
def Obligations.FrameUpdatesEveryChannel : Prop :=
  ∀ (u : Frame) (s : State), s.gate = true →
    (frameOps u).length = 14 ∧ (frameOps u)[0]? = some .gateOff ∧ (frameOps u)[13]? = some .gateOn ∧
    (∀ (k : Nat) (h : k < 12), (frameOps u)[k + 1]? = some (.store (BitVec.ofNat 4 k) u[k])) ∧
    ∃ t, execAll (frameOps u) s = .next t ∧ t.duty = u ∧ t.gate = true ∧ t.winStores = 0 ∧
      t.faults = s.faults ∧ t.lost = s.lost

/-- R161, R169 (writer agent as in log entry 13): in a system whose only writer is the documented one, every step keeps the
contract, and none records a fault, `WINDOW_OVERRUN` least of all. -/
def Obligations.DocumentedWriterKeepsItsContract : Prop :=
  ∀ (s t : State) (e : Event) (rest : List Event),
    s.trace = e :: rest → documentedEvent e = true → WriterContract s → step s = .next t →
    WriterContract t ∧ t.faults = s.faults

/-- R142, R161: under the contract no tick is serviced while stores of an update are outstanding: a service comes between
updates, or in the `GATE_ON` after all 12 stores, when the duty file is the new frame. -/
def Obligations.DocumentedServiceSeesAWholeFrame : Prop :=
  ∀ (s : State) (e : Event) (rest : List Event) (i : Instr),
    s.trace = e :: rest → documentedEvent e = true → WriterContract s → delivered s = some i →
    services i s = true → BetweenFrames s ∨ ∃ u, InsideFrame u 12 s ∧ s.duty = u

/-- R162: command 0xFF and its 12 payload bytes queue one `frame` with byte `k` for channel `k`, and nothing before the last
byte. -/
def Obligations.ColourCommandQueuesItsFrame : Prop :=
  ∀ (p : Params) (wr : Writer) (bs : List Byte), wr.phase = .command → wr.queue = [] →
    (bs.length < 12 → (bs.foldl (fun w b => readByte p b w) (readByte p 0xFF wr)).queue = []) ∧
    (bs.length = 12 →
      let wr' := bs.foldl (fun w b => readByte p b w) (readByte p 0xFF wr)
      wr'.playback = .stopped ∧ wr'.phase = .command ∧
      ∃ u : Frame, wr'.queue = frameOps u ∧ ∀ (k : Nat) (h : k < 12), bs[k]? = some u[k])

/-- R163, R172: command 0xFE reads `n = min(L, 60)` frames and, where `DRAIN_EXCESS` holds, the bytes beyond them. Before the
last of these bytes nothing is queued, playback is stopped and `pattern_length` is the old one; after it the Pattern Store
begins with those frames, and with `n > 0` playback starts with one `frame` of frame 0, unchanged. -/
def Obligations.UploadStoresTheClampedPattern : Prop :=
  ∀ (p : Params) (wr : Writer) (len : Byte) (bs extra : List Byte),
    wr.phase = .command → wr.queue = [] → bs.length = min len.toNat 60 * 12 →
    extra.length = (if p.drainExcess then (len.toNat - 60) * 12 else 0) →
    let bytes := 0xFE :: len :: (bs ++ extra)
    let wr' := bytes.foldl (fun w b => readByte p b w) wr
    (∀ m, 0 < m → m < bytes.length →
      let mid := (bytes.take m).foldl (fun w b => readByte p b w) wr
      mid.queue = [] ∧ mid.playback = .stopped ∧ mid.patternLength = wr.patternLength) ∧
    wr'.phase = .command ∧ wr'.patternLength = min len.toNat 60 ∧
    (len.toNat = 0 → wr'.queue = [] ∧ wr'.playback = .stopped) ∧
    (0 < len.toNat → wr'.store.take bs.length = bs ∧ wr'.playback = .playing ∧
      ∃ u : Frame, wr'.queue = frameOps u ∧ ∀ (k : Nat) (h : k < 12), bs[k]? = some u[k])

/-- R164 to R168, R172: set speed clamps its byte to 1..10 and issues nothing; start plays frame 0, unchanged, only of a
pattern that is not empty; stop and unknown bytes issue nothing. An advance queues exactly one `frame` of its 12 values
while Playing, between commands and with nothing left to issue, and changes nothing at any other time (the model's reading,
log entry 15). -/
def Obligations.OtherCommandsDoWhatTheyAreSaidTo : Prop :=
  (∀ (p : Params) (wr : Writer) (b : Byte), wr.phase = .command →
    readByte p b (readByte p 0xFD wr) = { wr with speed := max 1 (min b.toNat 10) } ∧
    (wr.patternLength = 0 → readByte p 0xFC wr = wr) ∧
    (0 < wr.patternLength →
      ∃ u : Frame, readByte p 0xFC wr = { wr with playback := .playing, queue := frameOps u } ∧
        ∀ (k : Nat) (h : k < 12) (x : Byte), wr.store[k]? = some x → u[k] = x) ∧
    readByte p 0xFB wr = { wr with playback := .stopped } ∧
    (b.toNat < 0xFB → readByte p b wr = wr)) ∧
  ∀ (s : State) (u : Frame) (rest : List Event), s.trace = .advance u :: rest →
    (s.writer.playback = .playing ∧ s.writer.phase = .command ∧ s.writer.queue = [] →
      step s = .next { s with trace := rest, writer := { s.writer with queue := frameOps u } }) ∧
    (¬ (s.writer.playback = .playing ∧ s.writer.phase = .command ∧ s.writer.queue = []) →
      step s = .next { s with trace := rest })

end writer
end

