-- ==== Sys2Proof/Laws/Decode.lean ====
section
/-! SUPPORT. The fields of a word: what the encoder writes into each, and what each says about the word's number. -/

namespace Sys2Proof

theorem opField_toNat (w : Word) : (opField w).toNat = w.toNat / 4096 := by
  have := w.isLt
  simp only [opField, BitVec.extractLsb'_toNat, Nat.shiftRight_eq_div_pow]
  omega

theorem chField_toNat (w : Word) : (chField w).toNat = w.toNat / 256 % 16 := by
  simp only [chField, BitVec.extractLsb'_toNat, Nat.shiftRight_eq_div_pow]

theorem vField_toNat (w : Word) : (vField w).toNat = w.toNat % 256 := by
  simp only [vField, BitVec.extractLsb'_toNat, Nat.shiftRight_zero]

theorem operandBits_toNat (w : Word) : (operandBits w).toNat = w.toNat % 4096 := by
  simp only [operandBits, BitVec.extractLsb'_toNat, Nat.shiftRight_zero]

/-- The number of a word put together from its three fields. -/
theorem fields_toNat (op ch : BitVec 4) (v : Byte) :
    (op ++ ch ++ v : Word).toNat = op.toNat * 4096 + ch.toNat * 256 + v.toNat := by
  have h1 := op.isLt
  have h2 := ch.isLt
  have h3 := v.isLt
  simp only [BitVec.toNat_append]
  rw [← Nat.shiftLeft_add_eq_or_of_lt (by omega), ← Nat.shiftLeft_add_eq_or_of_lt (by omega)]
  simp only [Nat.shiftLeft_eq]
  omega

theorem encode_store_toNat (ch : Channel) (v : Byte) :
    (encode (.store ch v)).toNat = 4096 + ch.toNat * 256 + v.toNat := by
  exact (fields_toNat 0x1#4 ch v).trans (by simp)

theorem encode_load_toNat (ch : Channel) : (encode (.load ch)).toNat = 8192 + ch.toNat * 256 := by
  exact (fields_toNat 0x2#4 ch 0x00#8).trans (by simp)

/-- Every operation is well formed: its operands have exactly their fields' widths (R72). -/
@[simp] theorem wellFormed_eq_true (i : Instr) : i.wellFormed = true := by
  cases i <;> simp [Instr.wellFormed] <;> omega

/-- The two bytes of a word, put together, are the word (R53). -/
theorem wordBytes_append (w : Word) : (w.extractLsb' 8 8 ++ w.extractLsb' 0 8 : Word) = w := by
  have h := w.isLt
  apply BitVec.eq_of_toNat_eq
  simp only [BitVec.toNat_append]
  rw [← Nat.shiftLeft_add_eq_or_of_lt (by omega)]
  simp only [BitVec.extractLsb'_toNat, Nat.shiftRight_eq_div_pow, Nat.shiftLeft_eq]
  omega

end Sys2Proof
end

