-- ==== Sys2Proof/Laws/State.lean ====
section
/-! SUPPORT. What each named update does to each field of the state: the simp set through which no proof unfolds a record
update. -/

namespace Sys2Proof.Machine

section addRecord

@[simp] theorem addRecord_duty (r : Reason) (w : Word) (s : State) : (addRecord r w s).duty = s.duty := rfl
@[simp] theorem addRecord_acc (r : Reason) (w : Word) (s : State) : (addRecord r w s).acc = s.acc := rfl
@[simp] theorem addRecord_out (r : Reason) (w : Word) (s : State) : (addRecord r w s).out = s.out := rfl
@[simp] theorem addRecord_gate (r : Reason) (w : Word) (s : State) : (addRecord r w s).gate = s.gate := rfl
@[simp] theorem addRecord_pend (r : Reason) (w : Word) (s : State) : (addRecord r w s).pend = s.pend := rfl
@[simp] theorem addRecord_winStores (r : Reason) (w : Word) (s : State) : (addRecord r w s).winStores = s.winStores := rfl
@[simp] theorem addRecord_lost (r : Reason) (w : Word) (s : State) : (addRecord r w s).lost = s.lost := rfl
@[simp] theorem addRecord_faults (r : Reason) (w : Word) (s : State) : (addRecord r w s).faults = s.faults ++ [⟨r, w, s.position⟩] := rfl
@[simp] theorem addRecord_rdata (r : Reason) (w : Word) (s : State) : (addRecord r w s).rdata = s.rdata := rfl
@[simp] theorem addRecord_position (r : Reason) (w : Word) (s : State) : (addRecord r w s).position = s.position := rfl
@[simp] theorem addRecord_trace (r : Reason) (w : Word) (s : State) : (addRecord r w s).trace = s.trace := rfl
@[simp] theorem addRecord_writer (r : Reason) (w : Word) (s : State) : (addRecord r w s).writer = s.writer := rfl
@[simp] theorem addRecord_params (r : Reason) (w : Word) (s : State) : (addRecord r w s).params = s.params := rfl
@[simp] theorem addRecord_draws (r : Reason) (w : Word) (s : State) : (addRecord r w s).draws = s.draws := rfl

end addRecord

section serviceTick

@[simp] theorem serviceTick_duty (s : State) : (serviceTick s).duty = s.duty := rfl
@[simp] theorem serviceTick_acc (s : State) : (serviceTick s).acc = s.acc + 1 := rfl
@[simp] theorem serviceTick_out (s : State) : (serviceTick s).out = levels s.duty s.acc := rfl
@[simp] theorem serviceTick_gate (s : State) : (serviceTick s).gate = s.gate := rfl
@[simp] theorem serviceTick_pend (s : State) : (serviceTick s).pend = s.pend := rfl
@[simp] theorem serviceTick_winStores (s : State) : (serviceTick s).winStores = s.winStores := rfl
@[simp] theorem serviceTick_lost (s : State) : (serviceTick s).lost = s.lost := rfl
@[simp] theorem serviceTick_faults (s : State) : (serviceTick s).faults = s.faults := rfl
@[simp] theorem serviceTick_rdata (s : State) : (serviceTick s).rdata = s.rdata := rfl
@[simp] theorem serviceTick_position (s : State) : (serviceTick s).position = s.position := rfl
@[simp] theorem serviceTick_trace (s : State) : (serviceTick s).trace = s.trace := rfl
@[simp] theorem serviceTick_writer (s : State) : (serviceTick s).writer = s.writer := rfl
@[simp] theorem serviceTick_params (s : State) : (serviceTick s).params = s.params := rfl
@[simp] theorem serviceTick_draws (s : State) : (serviceTick s).draws = s.draws := rfl

end serviceTick

section deferTick

@[simp] theorem deferTick_duty (s : State) : (deferTick s).duty = s.duty := rfl
@[simp] theorem deferTick_acc (s : State) : (deferTick s).acc = s.acc := rfl
@[simp] theorem deferTick_out (s : State) : (deferTick s).out = s.out := rfl
@[simp] theorem deferTick_gate (s : State) : (deferTick s).gate = s.gate := rfl
@[simp] theorem deferTick_pend (s : State) : (deferTick s).pend = true := rfl
@[simp] theorem deferTick_winStores (s : State) : (deferTick s).winStores = s.winStores := rfl
@[simp] theorem deferTick_lost (s : State) : (deferTick s).lost = s.lost := rfl
@[simp] theorem deferTick_faults (s : State) : (deferTick s).faults = s.faults := rfl
@[simp] theorem deferTick_rdata (s : State) : (deferTick s).rdata = s.rdata := rfl
@[simp] theorem deferTick_position (s : State) : (deferTick s).position = s.position := rfl
@[simp] theorem deferTick_trace (s : State) : (deferTick s).trace = s.trace := rfl
@[simp] theorem deferTick_writer (s : State) : (deferTick s).writer = s.writer := rfl
@[simp] theorem deferTick_params (s : State) : (deferTick s).params = s.params := rfl
@[simp] theorem deferTick_draws (s : State) : (deferTick s).draws = s.draws := rfl

end deferTick

section loseTick

@[simp] theorem loseTick_duty (s : State) : (loseTick s).duty = s.duty := rfl
@[simp] theorem loseTick_acc (s : State) : (loseTick s).acc = s.acc := rfl
@[simp] theorem loseTick_out (s : State) : (loseTick s).out = s.out := rfl
@[simp] theorem loseTick_gate (s : State) : (loseTick s).gate = s.gate := rfl
@[simp] theorem loseTick_pend (s : State) : (loseTick s).pend = s.pend := rfl
@[simp] theorem loseTick_winStores (s : State) : (loseTick s).winStores = s.winStores := rfl
@[simp] theorem loseTick_lost (s : State) : (loseTick s).lost = s.lost + 1 := rfl
@[simp] theorem loseTick_faults (s : State) : (loseTick s).faults = s.faults := rfl
@[simp] theorem loseTick_rdata (s : State) : (loseTick s).rdata = s.rdata := rfl
@[simp] theorem loseTick_position (s : State) : (loseTick s).position = s.position := rfl
@[simp] theorem loseTick_trace (s : State) : (loseTick s).trace = s.trace := rfl
@[simp] theorem loseTick_writer (s : State) : (loseTick s).writer = s.writer := rfl
@[simp] theorem loseTick_params (s : State) : (loseTick s).params = s.params := rfl
@[simp] theorem loseTick_draws (s : State) : (loseTick s).draws = s.draws := rfl

end loseTick

section takePending

@[simp] theorem takePending_duty (s : State) : (takePending s).duty = s.duty := rfl
@[simp] theorem takePending_acc (s : State) : (takePending s).acc = s.acc := rfl
@[simp] theorem takePending_out (s : State) : (takePending s).out = s.out := rfl
@[simp] theorem takePending_gate (s : State) : (takePending s).gate = s.gate := rfl
@[simp] theorem takePending_pend (s : State) : (takePending s).pend = false := rfl
@[simp] theorem takePending_winStores (s : State) : (takePending s).winStores = s.winStores := rfl
@[simp] theorem takePending_lost (s : State) : (takePending s).lost = s.lost := rfl
@[simp] theorem takePending_faults (s : State) : (takePending s).faults = s.faults := rfl
@[simp] theorem takePending_rdata (s : State) : (takePending s).rdata = s.rdata := rfl
@[simp] theorem takePending_position (s : State) : (takePending s).position = s.position := rfl
@[simp] theorem takePending_trace (s : State) : (takePending s).trace = s.trace := rfl
@[simp] theorem takePending_writer (s : State) : (takePending s).writer = s.writer := rfl
@[simp] theorem takePending_params (s : State) : (takePending s).params = s.params := rfl
@[simp] theorem takePending_draws (s : State) : (takePending s).draws = s.draws := rfl

end takePending

section closeGate

@[simp] theorem closeGate_duty (s : State) : (closeGate s).duty = s.duty := rfl
@[simp] theorem closeGate_acc (s : State) : (closeGate s).acc = s.acc := rfl
@[simp] theorem closeGate_out (s : State) : (closeGate s).out = s.out := rfl
@[simp] theorem closeGate_gate (s : State) : (closeGate s).gate = false := rfl
@[simp] theorem closeGate_pend (s : State) : (closeGate s).pend = s.pend := rfl
@[simp] theorem closeGate_winStores (s : State) : (closeGate s).winStores = 0 := rfl
@[simp] theorem closeGate_lost (s : State) : (closeGate s).lost = s.lost := rfl
@[simp] theorem closeGate_faults (s : State) : (closeGate s).faults = s.faults := rfl
@[simp] theorem closeGate_rdata (s : State) : (closeGate s).rdata = s.rdata := rfl
@[simp] theorem closeGate_position (s : State) : (closeGate s).position = s.position := rfl
@[simp] theorem closeGate_trace (s : State) : (closeGate s).trace = s.trace := rfl
@[simp] theorem closeGate_writer (s : State) : (closeGate s).writer = s.writer := rfl
@[simp] theorem closeGate_params (s : State) : (closeGate s).params = s.params := rfl
@[simp] theorem closeGate_draws (s : State) : (closeGate s).draws = s.draws := rfl

end closeGate

section openGate

@[simp] theorem openGate_duty (s : State) : (openGate s).duty = s.duty := rfl
@[simp] theorem openGate_acc (s : State) : (openGate s).acc = s.acc := rfl
@[simp] theorem openGate_out (s : State) : (openGate s).out = s.out := rfl
@[simp] theorem openGate_gate (s : State) : (openGate s).gate = true := rfl
@[simp] theorem openGate_pend (s : State) : (openGate s).pend = s.pend := rfl
@[simp] theorem openGate_winStores (s : State) : (openGate s).winStores = 0 := rfl
@[simp] theorem openGate_lost (s : State) : (openGate s).lost = s.lost := rfl
@[simp] theorem openGate_faults (s : State) : (openGate s).faults = s.faults := rfl
@[simp] theorem openGate_rdata (s : State) : (openGate s).rdata = s.rdata := rfl
@[simp] theorem openGate_position (s : State) : (openGate s).position = s.position := rfl
@[simp] theorem openGate_trace (s : State) : (openGate s).trace = s.trace := rfl
@[simp] theorem openGate_writer (s : State) : (openGate s).writer = s.writer := rfl
@[simp] theorem openGate_params (s : State) : (openGate s).params = s.params := rfl
@[simp] theorem openGate_draws (s : State) : (openGate s).draws = s.draws := rfl

end openGate

section countStore

@[simp] theorem countStore_duty (s : State) : (countStore s).duty = s.duty := rfl
@[simp] theorem countStore_acc (s : State) : (countStore s).acc = s.acc := rfl
@[simp] theorem countStore_out (s : State) : (countStore s).out = s.out := rfl
@[simp] theorem countStore_gate (s : State) : (countStore s).gate = s.gate := rfl
@[simp] theorem countStore_pend (s : State) : (countStore s).pend = s.pend := rfl
@[simp] theorem countStore_winStores (s : State) : (countStore s).winStores = min (s.winStores + 1) 13 := rfl
@[simp] theorem countStore_lost (s : State) : (countStore s).lost = s.lost := rfl
@[simp] theorem countStore_faults (s : State) : (countStore s).faults = s.faults := rfl
@[simp] theorem countStore_rdata (s : State) : (countStore s).rdata = s.rdata := rfl
@[simp] theorem countStore_position (s : State) : (countStore s).position = s.position := rfl
@[simp] theorem countStore_trace (s : State) : (countStore s).trace = s.trace := rfl
@[simp] theorem countStore_writer (s : State) : (countStore s).writer = s.writer := rfl
@[simp] theorem countStore_params (s : State) : (countStore s).params = s.params := rfl
@[simp] theorem countStore_draws (s : State) : (countStore s).draws = s.draws := rfl

end countStore

section returnData

@[simp] theorem returnData_duty (b : Option Byte) (s : State) : (returnData b s).duty = s.duty := rfl
@[simp] theorem returnData_acc (b : Option Byte) (s : State) : (returnData b s).acc = s.acc := rfl
@[simp] theorem returnData_out (b : Option Byte) (s : State) : (returnData b s).out = s.out := rfl
@[simp] theorem returnData_gate (b : Option Byte) (s : State) : (returnData b s).gate = s.gate := rfl
@[simp] theorem returnData_pend (b : Option Byte) (s : State) : (returnData b s).pend = s.pend := rfl
@[simp] theorem returnData_winStores (b : Option Byte) (s : State) : (returnData b s).winStores = s.winStores := rfl
@[simp] theorem returnData_lost (b : Option Byte) (s : State) : (returnData b s).lost = s.lost := rfl
@[simp] theorem returnData_faults (b : Option Byte) (s : State) : (returnData b s).faults = s.faults := rfl
@[simp] theorem returnData_rdata (b : Option Byte) (s : State) : (returnData b s).rdata = b := rfl
@[simp] theorem returnData_position (b : Option Byte) (s : State) : (returnData b s).position = s.position := rfl
@[simp] theorem returnData_trace (b : Option Byte) (s : State) : (returnData b s).trace = s.trace := rfl
@[simp] theorem returnData_writer (b : Option Byte) (s : State) : (returnData b s).writer = s.writer := rfl
@[simp] theorem returnData_params (b : Option Byte) (s : State) : (returnData b s).params = s.params := rfl
@[simp] theorem returnData_draws (b : Option Byte) (s : State) : (returnData b s).draws = s.draws := rfl

end returnData

section drawOut

@[simp] theorem drawOut_duty (s : State) : (drawOut s).duty = s.duty := rfl
@[simp] theorem drawOut_acc (s : State) : (drawOut s).acc = s.acc := rfl
@[simp] theorem drawOut_out (s : State) : (drawOut s).out = Config.outDraw s.draws := rfl
@[simp] theorem drawOut_gate (s : State) : (drawOut s).gate = s.gate := rfl
@[simp] theorem drawOut_pend (s : State) : (drawOut s).pend = s.pend := rfl
@[simp] theorem drawOut_winStores (s : State) : (drawOut s).winStores = s.winStores := rfl
@[simp] theorem drawOut_lost (s : State) : (drawOut s).lost = s.lost := rfl
@[simp] theorem drawOut_faults (s : State) : (drawOut s).faults = s.faults := rfl
@[simp] theorem drawOut_rdata (s : State) : (drawOut s).rdata = s.rdata := rfl
@[simp] theorem drawOut_position (s : State) : (drawOut s).position = s.position := rfl
@[simp] theorem drawOut_trace (s : State) : (drawOut s).trace = s.trace := rfl
@[simp] theorem drawOut_writer (s : State) : (drawOut s).writer = s.writer := rfl
@[simp] theorem drawOut_params (s : State) : (drawOut s).params = s.params := rfl
@[simp] theorem drawOut_draws (s : State) : (drawOut s).draws = s.draws + 1 := rfl

end drawOut

section rebootWriter

@[simp] theorem rebootWriter_duty (s : State) : (rebootWriter s).duty = s.duty := rfl
@[simp] theorem rebootWriter_acc (s : State) : (rebootWriter s).acc = s.acc := rfl
@[simp] theorem rebootWriter_out (s : State) : (rebootWriter s).out = s.out := rfl
@[simp] theorem rebootWriter_gate (s : State) : (rebootWriter s).gate = s.gate := rfl
@[simp] theorem rebootWriter_pend (s : State) : (rebootWriter s).pend = s.pend := rfl
@[simp] theorem rebootWriter_winStores (s : State) : (rebootWriter s).winStores = s.winStores := rfl
@[simp] theorem rebootWriter_lost (s : State) : (rebootWriter s).lost = s.lost := rfl
@[simp] theorem rebootWriter_faults (s : State) : (rebootWriter s).faults = s.faults := rfl
@[simp] theorem rebootWriter_rdata (s : State) : (rebootWriter s).rdata = s.rdata := rfl
@[simp] theorem rebootWriter_position (s : State) : (rebootWriter s).position = s.position := rfl
@[simp] theorem rebootWriter_trace (s : State) : (rebootWriter s).trace = s.trace := rfl
@[simp] theorem rebootWriter_writer (s : State) : (rebootWriter s).writer = Writer.boot := rfl
@[simp] theorem rebootWriter_params (s : State) : (rebootWriter s).params = s.params := rfl
@[simp] theorem rebootWriter_draws (s : State) : (rebootWriter s).draws = s.draws := rfl

end rebootWriter

section resetRegisters

@[simp] theorem resetRegisters_duty (s : State) : (resetRegisters s).duty = s.params.dutyReset := rfl
@[simp] theorem resetRegisters_acc (s : State) : (resetRegisters s).acc = s.params.accReset := rfl
@[simp] theorem resetRegisters_out (s : State) : (resetRegisters s).out = s.out := rfl
@[simp] theorem resetRegisters_gate (s : State) : (resetRegisters s).gate = true := rfl
@[simp] theorem resetRegisters_pend (s : State) : (resetRegisters s).pend = false := rfl
@[simp] theorem resetRegisters_winStores (s : State) : (resetRegisters s).winStores = 0 := rfl
@[simp] theorem resetRegisters_lost (s : State) : (resetRegisters s).lost = s.lost := rfl
@[simp] theorem resetRegisters_faults (s : State) : (resetRegisters s).faults = s.faults := rfl
@[simp] theorem resetRegisters_rdata (s : State) : (resetRegisters s).rdata = s.rdata := rfl
@[simp] theorem resetRegisters_position (s : State) : (resetRegisters s).position = s.position := rfl
@[simp] theorem resetRegisters_trace (s : State) : (resetRegisters s).trace = s.trace := rfl
@[simp] theorem resetRegisters_writer (s : State) : (resetRegisters s).writer = s.writer := rfl
@[simp] theorem resetRegisters_params (s : State) : (resetRegisters s).params = s.params := rfl
@[simp] theorem resetRegisters_draws (s : State) : (resetRegisters s).draws = s.draws := rfl

end resetRegisters

section accept

@[simp] theorem accept_duty (s : State) : (accept s).duty = s.duty := rfl
@[simp] theorem accept_acc (s : State) : (accept s).acc = s.acc := rfl
@[simp] theorem accept_out (s : State) : (accept s).out = s.out := rfl
@[simp] theorem accept_gate (s : State) : (accept s).gate = s.gate := rfl
@[simp] theorem accept_pend (s : State) : (accept s).pend = s.pend := rfl
@[simp] theorem accept_winStores (s : State) : (accept s).winStores = s.winStores := rfl
@[simp] theorem accept_lost (s : State) : (accept s).lost = s.lost := rfl
@[simp] theorem accept_faults (s : State) : (accept s).faults = s.faults := rfl
@[simp] theorem accept_rdata (s : State) : (accept s).rdata = none := rfl
@[simp] theorem accept_position (s : State) : (accept s).position = s.position + 1 := rfl
@[simp] theorem accept_trace (s : State) : (accept s).trace = s.trace := rfl
@[simp] theorem accept_writer (s : State) : (accept s).writer = s.writer := rfl
@[simp] theorem accept_params (s : State) : (accept s).params = s.params := rfl
@[simp] theorem accept_draws (s : State) : (accept s).draws = s.draws := rfl

end accept

section memWrite

@[simp] theorem memWrite_acc (s : State) (a : Nat) (v : Byte) : (memWrite s a v).acc = s.acc := by
  unfold memWrite; split <;> rfl
@[simp] theorem memWrite_out (s : State) (a : Nat) (v : Byte) : (memWrite s a v).out = s.out := by
  unfold memWrite; split <;> rfl
@[simp] theorem memWrite_gate (s : State) (a : Nat) (v : Byte) : (memWrite s a v).gate = s.gate := by
  unfold memWrite; split <;> rfl
@[simp] theorem memWrite_pend (s : State) (a : Nat) (v : Byte) : (memWrite s a v).pend = s.pend := by
  unfold memWrite; split <;> rfl
@[simp] theorem memWrite_winStores (s : State) (a : Nat) (v : Byte) : (memWrite s a v).winStores = s.winStores := by
  unfold memWrite; split <;> rfl
@[simp] theorem memWrite_lost (s : State) (a : Nat) (v : Byte) : (memWrite s a v).lost = s.lost := by
  unfold memWrite; split <;> rfl
@[simp] theorem memWrite_faults (s : State) (a : Nat) (v : Byte) : (memWrite s a v).faults = s.faults := by
  unfold memWrite; split <;> rfl
@[simp] theorem memWrite_rdata (s : State) (a : Nat) (v : Byte) : (memWrite s a v).rdata = s.rdata := by
  unfold memWrite; split <;> rfl
@[simp] theorem memWrite_position (s : State) (a : Nat) (v : Byte) : (memWrite s a v).position = s.position := by
  unfold memWrite; split <;> rfl
@[simp] theorem memWrite_trace (s : State) (a : Nat) (v : Byte) : (memWrite s a v).trace = s.trace := by
  unfold memWrite; split <;> rfl
@[simp] theorem memWrite_writer (s : State) (a : Nat) (v : Byte) : (memWrite s a v).writer = s.writer := by
  unfold memWrite; split <;> rfl
@[simp] theorem memWrite_params (s : State) (a : Nat) (v : Byte) : (memWrite s a v).params = s.params := by
  unfold memWrite; split <;> rfl
@[simp] theorem memWrite_draws (s : State) (a : Nat) (v : Byte) : (memWrite s a v).draws = s.draws := by
  unfold memWrite; split <;> rfl

end memWrite

@[simp] theorem raiseFault_eq (r : Reason) (w : Word) (s : State) : raiseFault r w s = addRecord r w s := rfl

@[simp] theorem refuse_eq (r : Reason) (w : Word) (s : State) : refuse r w s = addRecord r w s := rfl

end Sys2Proof.Machine
end

