-- ==== Sys2Proof/Laws/Ops.lean ====
section
/-! SUPPORT. What each shared operation can do, once: memory reads and writes, the comparators, the window count, and the
meanings as one equation each. -/

namespace Sys2Proof.Machine

@[simp] theorem channelAddr_eq (ch : Channel) : channelAddr ch = ch.toNat := by
  have := ch.isLt
  simp only [channelAddr, BitVec.toNat_setWidth]
  omega

theorem memRead_mapped (s : State) (a : Nat) (h : a < 12) : memRead s a = some s.duty[a] := dif_pos h

theorem memRead_unmapped (s : State) (a : Nat) (h : 12 ≤ a) : memRead s a = none := dif_neg (by omega)

theorem memWrite_mapped (s : State) (a : Nat) (v : Byte) (h : a < 12) :
    memWrite s a v = { s with duty := s.duty.set a v } := dif_pos h

theorem memWrite_unmapped (s : State) (a : Nat) (v : Byte) (h : 12 ≤ a) : memWrite s a v = s := dif_neg (by omega)

/-- A read sees the byte just written to its own mapped address, and what was there before at every other address. -/
theorem memRead_memWrite (s : State) (a b : Nat) (v : Byte) :
    memRead (memWrite s a v) b = if b = a ∧ a < 12 then some v else memRead s b := by
  by_cases ha : a < 12
  · rw [memWrite_mapped s a v ha]
    by_cases hb : b < 12
    · simp only [memRead, hb, ha, and_true, dif_pos, Vector.getElem_set, eq_comm (a := b)]
      split <;> rfl
    · have : b ≠ a := by omega
      simp [memRead, hb, this]
  · rw [memWrite_unmapped s a v (by omega)]
    simp [ha]

/-- Two states with the same duty file read the same byte at every address. -/
theorem memRead_congr {s t : State} (h : t.duty = s.duty) (a : Nat) : memRead t a = memRead s a := by
  unfold memRead; rw [h]

/-- The duty address space written out as cells is always in its canonical form (log entry 11), so every operation
keeps it. -/
theorem memCells_wf (s : State) : memCellsWf (memCells s) = true := by
  simp [memCellsWf, memCells, Function.comp_def]

theorem comparator_iff (d a : Byte) : comparator d a = true ↔ a.toNat < d.toNat := by
  simp [comparator]

@[simp] theorem levels_getElem (duty : Frame) (a : Byte) (c : Nat) (h : c < 12) :
    (levels duty a)[c] = comparator duty[c] a := by
  simp [levels]

/-- Everything the window count of a store can do (R120). -/
theorem countInWindow_cases (w : Word) (s : State) :
    (s.gate = true ∧ countInWindow w s = s) ∨
    (s.gate = false ∧ s.winStores < 12 ∧ countInWindow w s = { s with winStores := s.winStores + 1 }) ∨
    (s.gate = false ∧ 12 ≤ s.winStores ∧
      countInWindow w s = addRecord .windowOverrun w { s with winStores := 13 }) := by
  by_cases hg : s.gate = true
  · exact .inl ⟨hg, by simp [countInWindow, hg]⟩
  · have hg' : s.gate = false := by simpa using hg
    rcases Nat.lt_or_ge s.winStores 12 with hw | hw
    · have hc : countStore s = { s with winStores := s.winStores + 1 } := by
        simp only [countStore, Config.windowMaxStores]; congr 1; omega
      refine .inr (.inl ⟨hg', hw, ?_⟩)
      rw [countInWindow, if_neg hg, hc, if_neg (by simp only [Config.windowMaxStores]; omega)]
    · have hc : countStore s = { s with winStores := 13 } := by
        simp only [countStore, Config.windowMaxStores]; congr 1; omega
      refine .inr (.inr ⟨hg', hw, ?_⟩)
      rw [countInWindow, if_neg hg, hc, if_pos (by simp), raiseFault]

section meanings

theorem exec_store_mapped (ch : Channel) (v : Byte) (s : State) (h : ch.toNat < 12) :
    exec (.store ch v) s =
      .next (countInWindow (encode (.store ch v)) { s with duty := s.duty.set ch.toNat v }) := by
  simp [exec, execStore, mapped, h, memWrite_mapped]

theorem exec_store_unmapped (ch : Channel) (v : Byte) (s : State) (h : 12 ≤ ch.toNat) :
    exec (.store ch v) s = .next (addRecord .illegalChannel (encode (.store ch v)) s) := by
  simp [exec, execStore, mapped, h]

theorem exec_load_mapped (ch : Channel) (s : State) (h : ch.toNat < 12) :
    exec (.load ch) s = .next (returnData (some s.duty[ch.toNat]) s) := by
  simp [exec, execLoad, memRead_mapped, h]

theorem exec_load_unmapped (ch : Channel) (s : State) (h : 12 ≤ ch.toNat) :
    exec (.load ch) s = .next (addRecord .illegalChannel (encode (.load ch)) (returnData none s)) := by
  simp [exec, execLoad, memRead_unmapped, h]

theorem exec_gateOff (s : State) : exec .gateOff s = .next (if s.gate then closeGate s else s) := by
  simp only [exec, execGateOff]; split <;> rfl

theorem exec_gateOn (s : State) :
    exec .gateOn s =
      .next (if s.gate then s
        else if s.pend then serviceTick (takePending (openGate s)) else openGate s) := by
  simp only [exec, execGateOn]; split <;> [rfl; (split <;> rfl)]

theorem exec_tick (s : State) :
    exec .tick s =
      .next (if s.gate then serviceTick s
        else if s.params.gatedTickPolicy = .defer1 ∧ s.pend = false then deferTick s else loseTick s) := by
  simp only [exec, execTick]
  cases s.gate <;> cases s.params.gatedTickPolicy <;> cases s.pend <;> rfl

theorem exec_reset (s : State) : exec .reset s = .next (rebootWriter (drawOut (resetRegisters s))) := rfl

/-- No operation ends in a fault or a refusal (R180). -/
theorem exec_next (i : Instr) (s : State) : ∃ t, exec i s = .next t := by
  cases i with
  | store ch v =>
    by_cases h : ch.toNat < 12
    · exact ⟨_, exec_store_mapped ch v s h⟩
    · exact ⟨_, exec_store_unmapped ch v s (by omega)⟩
  | load ch =>
    by_cases h : ch.toNat < 12
    · exact ⟨_, exec_load_mapped ch s h⟩
    · exact ⟨_, exec_load_unmapped ch s (by omega)⟩
  | gateOff => exact ⟨_, exec_gateOff s⟩
  | gateOn => exact ⟨_, exec_gateOn s⟩
  | tick => exact ⟨_, exec_tick s⟩
  | reset => exact ⟨_, exec_reset s⟩

/-- Everything `STORE` can do (R120). -/
theorem exec_store_cases {ch : Channel} {v : Byte} {s t : State} (h : exec (.store ch v) s = .next t) :
    (12 ≤ ch.toNat ∧ t = addRecord .illegalChannel (encode (.store ch v)) s) ∨
    ∃ hc : ch.toNat < 12,
      (s.gate = true ∧ t = { s with duty := s.duty.set ch.toNat v }) ∨
      (s.gate = false ∧ s.winStores < 12 ∧
        t = { s with duty := s.duty.set ch.toNat v, winStores := s.winStores + 1 }) ∨
      (s.gate = false ∧ 12 ≤ s.winStores ∧
        t = addRecord .windowOverrun (encode (.store ch v))
          { s with duty := s.duty.set ch.toNat v, winStores := 13 }) := by
  by_cases hc : ch.toNat < 12
  · rw [exec_store_mapped ch v s hc] at h
    obtain rfl := Host.Outcome.next.inj h
    exact .inr ⟨hc, countInWindow_cases (encode (.store ch v)) { s with duty := s.duty.set ch.toNat v }⟩
  · rw [exec_store_unmapped ch v s (by omega)] at h
    exact .inl ⟨by omega, (Host.Outcome.next.inj h).symm⟩

/-- Everything `LOAD` can do (R121). -/
theorem exec_load_cases {ch : Channel} {s t : State} (h : exec (.load ch) s = .next t) :
    (∃ hc : ch.toNat < 12, t = returnData (some s.duty[ch.toNat]) s) ∨
    (12 ≤ ch.toNat ∧ t = addRecord .illegalChannel (encode (.load ch)) (returnData none s)) := by
  by_cases hc : ch.toNat < 12
  · rw [exec_load_mapped ch s hc] at h
    exact .inl ⟨hc, (Host.Outcome.next.inj h).symm⟩
  · rw [exec_load_unmapped ch s (by omega)] at h
    exact .inr ⟨by omega, (Host.Outcome.next.inj h).symm⟩

/-- Everything `GATE_OFF` can do (R140). -/
theorem exec_gateOff_cases {s t : State} (h : exec .gateOff s = .next t) :
    (s.gate = true ∧ t = closeGate s) ∨ (s.gate = false ∧ t = s) := by
  rw [exec_gateOff] at h
  obtain rfl := Host.Outcome.next.inj h
  by_cases hg : s.gate = true
  · exact .inl ⟨hg, if_pos hg⟩
  · exact .inr ⟨by simpa using hg, if_neg hg⟩

/-- Everything `GATE_ON` can do (R141). -/
theorem exec_gateOn_cases {s t : State} (h : exec .gateOn s = .next t) :
    (s.gate = true ∧ t = s) ∨ (s.gate = false ∧ s.pend = false ∧ t = openGate s) ∨
    (s.gate = false ∧ s.pend = true ∧ t = serviceTick (takePending (openGate s))) := by
  rw [exec_gateOn] at h
  obtain rfl := Host.Outcome.next.inj h
  by_cases hg : s.gate = true
  · exact .inl ⟨hg, if_pos hg⟩
  · rw [if_neg hg]
    by_cases hp : s.pend = true
    · exact .inr (.inr ⟨by simpa using hg, hp, if_pos hp⟩)
    · exact .inr (.inl ⟨by simpa using hg, by simpa using hp, if_neg hp⟩)

/-- Everything `TICK` can do (R100). -/
theorem exec_tick_cases {s t : State} (h : exec .tick s = .next t) :
    (s.gate = true ∧ t = serviceTick s) ∨
    (s.gate = false ∧ s.params.gatedTickPolicy = .defer1 ∧ s.pend = false ∧ t = deferTick s) ∨
    (s.gate = false ∧ (s.params.gatedTickPolicy = .drop ∨ s.pend = true) ∧ t = loseTick s) := by
  rw [exec_tick] at h
  obtain rfl := Host.Outcome.next.inj h
  by_cases hg : s.gate = true
  · exact .inl ⟨hg, if_pos hg⟩
  · have hg' : s.gate = false := by simpa using hg
    rw [if_neg hg]
    by_cases hq : s.params.gatedTickPolicy = .defer1 ∧ s.pend = false
    · exact .inr (.inl ⟨hg', hq.1, hq.2, if_pos hq⟩)
    · refine .inr (.inr ⟨hg', ?_, if_neg hq⟩)
      revert hq
      cases s.params.gatedTickPolicy <;> cases s.pend <;> simp

/-- Everything `RESET` does (R210). -/
theorem exec_reset_cases {s t : State} (h : exec .reset s = .next t) :
    t = rebootWriter (drawOut (resetRegisters s)) := (Host.Outcome.next.inj h).symm

end meanings

/-- Everything one word at the interface can do: it is refused with a record, or it executes (R184). -/
theorem operate_cases (a : Agent) (w : Word) (s : State) :
    (∃ i, decode w = .op i ∧ issuer i = a ∧ operate a w s = exec i s) ∨
    ∃ r, operate a w s = .next (addRecord r w s) := by
  unfold operate
  split
  · exact .inr ⟨_, rfl⟩
  · rename_i i hi
    split
    · exact .inl ⟨i, hi, by assumption, rfl⟩
    · exact .inr ⟨_, rfl⟩

end Sys2Proof.Machine
end

