-- ==== Sys2Proof/Laws/PerInstr.lean ====
section
/-! SUPPORT. One family of statements per operation: its word is the one the opcode table gives (30_encoding.md R74). -/

namespace Sys2Proof.Laws.EncodesByTable

/-- The operation is well formed, and a row of the opcode table has its mnemonic, its issuer, and a match and mask that its
word meets (R74, R75). -/
def Statement (i : Instr) : Prop :=
  i.wellFormed = true ∧
  ∃ row ∈ opcodeTable, row.mnemonic = mnemonic i ∧ row.issuedBy = issuer i ∧ encode i &&& row.mask = row.pattern

/-- Masking the fields of a word masks each of them. -/
theorem fields_and (op ch op' ch' : BitVec 4) (v v' : Byte) :
    (op ++ ch ++ v : Word) &&& (op' ++ ch' ++ v') = (op &&& op') ++ (ch &&& ch') ++ (v &&& v') := by
  simp only [BitVec.and_append]

theorem store (ch : Channel) (v : Byte) : Statement (.store ch v) := by
  refine ⟨wellFormed_eq_true _, ⟨"STORE", 0x1000, 0xF000, .writer⟩, by simp [opcodeTable], rfl, rfl, ?_⟩
  have h : (0xF000 : Word) = 0xF#4 ++ 0x0#4 ++ 0x00#8 := by decide
  simp only [encode, h]
  rw [fields_and]
  simp

theorem load (ch : Channel) : Statement (.load ch) := by
  refine ⟨wellFormed_eq_true _, ⟨"LOAD", 0x2000, 0xF0FF, .writer⟩, by simp [opcodeTable], rfl, rfl, ?_⟩
  have h : (0xF0FF : Word) = 0xF#4 ++ 0x0#4 ++ 0xFF#8 := by decide
  simp only [encode, h]
  rw [fields_and]
  simp

theorem gateOff : Statement .gateOff := by unfold Statement; decide

theorem gateOn : Statement .gateOn := by unfold Statement; decide

theorem tick : Statement .tick := by unfold Statement; decide

theorem reset : Statement .reset := by unfold Statement; decide

end Sys2Proof.Laws.EncodesByTable
end

