-- ==== Sys2Proof/Laws/Runs.lean ====
section
/-! SUPPORT. Runs of operations and the ticks they service. -/

namespace Sys2Proof.Machine

@[simp] theorem execAll_nil (s : State) : execAll [] s = .next s := rfl

theorem execAll_cons {i : Instr} {s t : State} (h : exec i s = .next t) (is : List Instr) :
    execAll (i :: is) s = execAll is t := by
  simp only [execAll, h]

@[simp] theorem serviceLog_nil (s : State) : serviceLog [] s = [] := rfl

theorem serviceLog_cons {i : Instr} {s t : State} (h : exec i s = .next t) (is : List Instr) :
    serviceLog (i :: is) s = (if services i s then [⟨s.acc, s.duty, t.out⟩] else []) ++ serviceLog is t := by
  simp only [serviceLog, h]

/-- A run of operations always ends in a state. -/
theorem execAll_next (is : List Instr) (s : State) : ∃ t, execAll is s = .next t := by
  induction is generalizing s with
  | nil => exact ⟨s, rfl⟩
  | cons i is ih =>
    obtain ⟨t, ht⟩ := exec_next i s
    rw [execAll_cons ht]
    exact ih t

/-- `k` ticks with the gate open: `k` services, each on the same duty file. -/
theorem serviceLog_ticks (k : Nat) (s : State) (h : s.gate = true) :
    (serviceLog (List.replicate k .tick) s).length = k ∧
    ∀ r ∈ serviceLog (List.replicate k .tick) s, r.duty = s.duty := by
  induction k generalizing s with
  | zero => simp
  | succ k ih =>
    have hs : exec .tick s = .next (serviceTick s) := by rw [exec_tick]; simp [h]
    have := ih (serviceTick s) h
    rw [List.replicate_succ, serviceLog_cons hs]
    simp only [services, h]
    constructor
    · simp [this.1]
    · intro r hr
      simp only [if_true, List.cons_append, List.nil_append, List.mem_cons] at hr
      rcases hr with rfl | hr
      · rfl
      · exact this.2 r hr

/-- The state an event leaves for the operation it brings: the event is off the trace, the position has moved on, `rdata` is
empty, and the writer may have taken the operation off its queue (R9, R70, R160). -/
def ReadyToOperate (s s' : State) : Prop :=
  s' = { s with trace := s'.trace, position := s.position + 1, rdata := none, writer := s'.writer }

/-- Everything a step can do: nothing, execute one operation, refuse one word with a record, or move the trace and the
writer alone. -/
theorem step_cases {s t : State} (h : step s = .next t) :
    t = s ∨
    (∃ i s', ReadyToOperate s s' ∧ exec i s' = .next t) ∨
    (∃ r w s', ReadyToOperate s s' ∧ t = addRecord r w s') ∨
    t = { s with trace := t.trace, writer := t.writer } := by
  have op : ∀ a w s', ReadyToOperate s s' → operate a w s' = .next t →
      (∃ i s', ReadyToOperate s s' ∧ exec i s' = .next t) ∨
      (∃ r w s', ReadyToOperate s s' ∧ t = addRecord r w s') := by
    intro a w s' hs' ht
    rcases operate_cases a w s' with ⟨i, -, -, hi⟩ | ⟨r, hr⟩
    · exact .inl ⟨i, s', hs', hi ▸ ht⟩
    · rw [hr] at ht
      exact .inr ⟨r, w, s', hs', (Host.Outcome.next.inj ht).symm⟩
  unfold step nextEvent at h
  split at h
  · exact .inl (Host.Outcome.next.inj h).symm
  · rename_i e rest _
    cases e with
    | op a w => exact .inr ((op a w (accept { s with trace := rest }) rfl h).elim .inl (fun x => .inr (.inl x)))
    | serialByte b => obtain rfl := Host.Outcome.next.inj h; exact .inr (.inr (.inr rfl))
    | advance u => obtain rfl := Host.Outcome.next.inj h; exact .inr (.inr (.inr rfl))
    | writerTurn =>
      simp only [runEvent, writerTurn] at h
      split at h
      · rename_i i more _
        exact .inr ((op .writer (encode i) (accept
          { s with trace := rest, writer := { s.writer with queue := more } }) rfl h).elim .inl (fun x => .inr (.inl x)))
      · obtain rfl := Host.Outcome.next.inj h; exact .inr (.inr (.inr rfl))

end Sys2Proof.Machine
end

