-- ==== Sys2Proof/Tests/Slice0.lean ====
section
/-! SUPPORT. Tests with results from outside the model (95_test_vectors.md, or hand calculation from the rules), and one
witness for the hypotheses of each statement that has any. -/

namespace Sys2Proof.Tests

open Sys2Proof.Machine

/-- The state an outcome holds, if it is a next state. -/
def after (o : Host.Outcome State Fault Refusal) : Option State :=
  match o with
  | .next t => some t
  | .fault _ => none
  | .refused _ => none

/-- The state after reset with the gate closed and `n` stores counted. -/
def window (n : Nat) : State := { State.reset with gate := false, winStores := n }

/-- The state after reset with one word, attributed to an agent, to come. -/
def placed (a : Agent) (w : Word) : State := { State.reset with trace := [.op a w] }

section wellFormed

theorem test_wf_instr_every_operand : (Instr.store 15 0xFF).wellFormed = true := by decide
theorem test_wf_line_ok : (TraceLine.store 15 255).wellFormed = true := by decide
theorem test_wf_store_channel_refused : (TraceLine.store 16 0).wellFormed = false := by decide
theorem test_wf_store_value_refused : (TraceLine.store 0 256).wellFormed = false := by decide
theorem test_wf_load_refused : (TraceLine.load 16).wellFormed = false := by decide
theorem test_wf_word_refused : (TraceLine.word 0x10000).wellFormed = false := by decide
theorem test_wf_frame_length_refused : (TraceLine.frame [1, 2, 3]).wellFormed = false := by decide
theorem test_wf_frame_value_refused : (TraceLine.frame [0, 0, 0, 0, 0, 0, 0, 0, 0, 0, 0, 256]).wellFormed = false := by
  decide
theorem test_wf_fill_refused : (TraceLine.fill 256).wellFormed = false := by decide

end wellFormed

section decoding

/-! The words of R71's format, written out bit by bit, and the vectors of 95_test_vectors.md section 2.1. -/

theorem test_decode_store_bits : decode 0b0001101111111111#16 = .op (.store 11 0xFF) := by decide
theorem test_decode_load_bits : decode 0b0010101100000000#16 = .op (.load 11) := by decide
theorem test_decode_gate_off_bits : decode 0b0011000000000000#16 = .op .gateOff := by decide
theorem test_decode_gate_on_bits : decode 0b0100000000000000#16 = .op .gateOn := by decide
theorem test_decode_tick_bits : decode 0b1000000000000000#16 = .op .tick := by decide
theorem test_decode_reset_bits : decode 0b1111000000000000#16 = .op .reset := by decide
theorem test_decode_reserved_opcodes :
    [0x0000#16, 0x5000#16, 0x7FFF#16, 0x9000#16, 0xE0FF#16].map decode =
      List.replicate 5 (.invalid .reservedOpcode) := by decide
theorem test_decode_reserved_fields :
    [0x2B01#16, 0x3001#16, 0x3100#16, 0x8100#16, 0xF001#16].map decode =
      List.replicate 5 (.invalid .reservedField) := by decide
theorem test_decode_channel_not_checked :
    [0x1C00#16, 0x1FFF#16, 0x2F00#16].map decode =
      [.op (.store 12 0x00), .op (.store 15 0xFF), .op (.load 15)] := by decide
theorem test_encode_words :
    [Instr.store 3 0x80, .load 11, .gateOff, .gateOn, .tick, .reset].map encode =
      [0x1380, 0x2B00, 0x3000, 0x4000, 0x8000, 0xF000] := by decide
/-- No two rows of the opcode table share a word. -/
theorem test_opcode_rows_disjoint :
    opcodeTable.Pairwise (fun r r' => r.pattern &&& (r.mask &&& r'.mask) ≠ r'.pattern &&& (r.mask &&& r'.mask)) := by
  decide
theorem test_table_word : decodeTableWord 16 0x2B00 = some (.load 11) ∧ decodeTableWord 16 0x2B01 = none := by decide
theorem test_trace_bytes_high_byte_first : traceWords [0x13, 0x80, 0x2B, 0x00] = some [0x1380, 0x2B00] := by decide
theorem test_trace_half_word : readTrace [0x13] = .halfWord 0x13 ∧ readTrace [] = .endOfTrace := by decide

end decoding

section traceText

/-! Lines of 95_test_vectors.md section 3 and the forms of R81 and R82. -/

theorem test_line_store : readLine "store c3, 0xFF             ; 13FF".toList = .line (.store 3 255) := by decide
theorem test_line_store_decimal : readLine "store c11, 42".toList = .line (.store 11 42) := by decide
theorem test_line_word : readLine ".word 0x2B01               ;       refusal".toList = .line (.word 0x2B01) := by decide
theorem test_line_ticks : readLine "ticks 256".toList = .line (.ticks 256) := by decide
theorem test_line_plain :
    ["gate.off", "gate.on", "tick", "reset", "load c12"].map (fun l => readLine l.toList) =
      [.line .gateOff, .line .gateOn, .line .tick, .line .reset, .line (.load 12)] := by decide
theorem test_line_frame :
    readLine "frame 0, 1, 2, 3, 4, 5, 6, 7, 8, 9, 10, 0x0B".toList =
      .line (.frame [0, 1, 2, 3, 4, 5, 6, 7, 8, 9, 10, 11]) := by decide
theorem test_line_comment : readLine "; writer waits".toList = .blank := by decide
theorem test_line_malformed : readLine "store c16, 0".toList = .malformed := by decide
theorem test_line_store_events : lineEvents (.store 3 0x80) = [.op .writer 0x1380] := by decide
theorem test_line_word_events : lineEvents (.word 0x8000) = [.op .tickSource 0x8000] := by decide
theorem test_line_fill_events :
    (lineEvents (.fill 0x40)).take 3 = [.op .writer 0x3000, .op .writer 0x1040, .op .writer 0x1140] ∧
    (lineEvents (.fill 0x40)).length = 14 := by decide

end traceText

section operations

/-- 95 section 2.4: the 12th store of a window is legal. -/
theorem test_store_twelfth :
    (after (exec (.store 5 0x01) (window 11))).map (fun t => (t.duty[5], t.winStores, t.faults)) =
      some (0x01, 12, []) := by decide
/-- 95 section 2.4: the 13th store of a window takes effect and faults. -/
theorem test_store_thirteenth :
    (after (exec (.store 5 0x02) (window 12))).map (fun t => (t.duty[5], t.winStores, t.faults)) =
      some (0x02, 13, [⟨.windowOverrun, 0x1502, 0⟩]) := by decide
/-- 95 section 2.4: `load c11` after `store c11, 0x2A`. -/
theorem test_load_returns :
    (after (execAll [.store 11 0x2A, .load 11] State.reset)).map (fun t => (t.rdata, t.winStores)) =
      some (some 0x2A, 0) := by decide
/-- 95 section 2.4: `load c12` returns nothing and faults. -/
theorem test_load_unmapped :
    (after (exec (.load 12) State.reset)).map (fun t => (t.rdata, t.faults)) =
      some (none, [⟨.illegalChannel, 0x2C00, 0⟩]) := by decide
/-- 95 section 2.5: a `GATE_OFF` in a window keeps the count. -/
theorem test_gate_off_does_not_nest :
    (after (exec .gateOff (window 5))).map (fun t => (t.gate, t.winStores)) = some (false, 5) := by decide
theorem test_gate_off_opens_a_window :
    (after (exec .gateOff State.reset)).map (fun t => (t.gate, t.winStores)) = some (false, 0) := by decide
/-- 95 section 2.5: the deferred service of `GATE_ON` at `ACC` = 0xFF wraps and leaves every level low. -/
theorem test_gate_on_services_the_deferred_tick :
    (after (exec .gateOn { window 12 with pend := true, acc := 0xFF, duty := Vector.replicate 12 0xFF })).map
      (fun t => (t.gate, t.pend, t.acc, t.out, t.winStores)) =
      some (true, false, 0x00, Vector.replicate 12 false, 0) := by decide
theorem test_gate_on_without_a_deferred_tick :
    (after (exec .gateOn (window 12))).map (fun t => (t.gate, t.acc, t.winStores)) = some (true, 0x00, 0) := by decide
/-- 95 section 2.3: the symmetry vector, `ACC` = 0x01. -/
theorem test_tick_symmetry :
    (after (exec .tick { State.reset with
        acc := 0x01, duty := #v[0x00, 0x01, 0x80, 0xFF, 0x00, 0x01, 0x80, 0xFF, 0x00, 0x01, 0x80, 0xFF] })).map
      (fun t => (t.out, t.acc)) =
      some (#v[false, false, true, true, false, false, true, true, false, false, true, true], 0x02) := by decide
/-- 95 section 2.2: a tick in a window, under both policies, the first and the second time. -/
theorem test_tick_gated :
    ((after (exec .tick (window 0))).map (fun t => (t.pend, t.lost)),
     (after (exec .tick { window 0 with pend := true })).map (fun t => (t.pend, t.lost)),
     (after (exec .tick { window 0 with params := { Params.default with gatedTickPolicy := .drop } })).map
       (fun t => (t.pend, t.lost))) =
      (some (true, 0), some (true, 1), some (false, 1)) := by decide
/-- 95 section 2.3: signed comparisons would answer these the other way round. -/
theorem test_comparator_unsigned :
    (comparator 0x80 0x7F, comparator 0x7F 0x80, comparator 0x80 0x80, comparator 0xFF 0xFE) =
      (true, false, false, true) := by decide
/-- 95 section 2.6. -/
theorem test_reset_vector :
    let s := { window 3 with
      pend := true, acc := 0x37, lost := 2, duty := Vector.replicate 12 0x10, faults := [⟨.wrongAgent, 0x8000, 1⟩] }
    (after (exec .reset s)).map (fun t => (t.duty, t.gate, t.pend)) = some (Vector.replicate 12 0x00, true, false) ∧
    (after (exec .reset s)).map (fun t => (t.acc, t.winStores, t.lost, t.faults)) =
      some (0x00, 0, 2, [⟨.wrongAgent, 0x8000, 1⟩]) := by decide
theorem test_reset_uses_the_parameters :
    (after (exec .reset { State.reset with
      params := { Params.default with dutyReset := Vector.replicate 12 0x20, accReset := 0x37 } })).map
      (fun t => (t.duty[11], t.acc)) = some (0x20, 0x37) := by decide
/-- R70, R25: `out[c] = OUT[c]`, channels 0 to 5 in G0 and 6 to 11 in G1. -/
theorem test_out_port :
    let s := { State.reset with
      out := #v[true, false, false, false, false, false, true, true, false, false, false, false] }
    (outPort s, outGroup0 s, outGroup1 s) = (0x0C1#12, 0x01#6, 0x03#6) := by decide

end operations

section steps

/-- 0x8000 issued by the writer (95 section 2.1): refusal R3, at position 1 of the trace. -/
theorem test_step_wrong_agent :
    (after (step { State.reset with trace := [.op .writer 0x8000] })).map (fun t => (t.faults, t.acc, t.trace)) =
      some ([⟨.wrongAgent, 0x8000, 1⟩], 0x00, []) := by decide
/-- P4 of 95 section 3: `.word 0x2B01` is refused as a reserved field. -/
theorem test_step_reserved_field :
    (after (step { State.reset with trace := [.op .writer 0x2B01], position := 2 })).map (fun t => t.faults) =
      some [⟨.reservedField, 0x2B01, 3⟩] := by decide
theorem test_step_placed_word :
    (after (step (State.reset.withFetchWord 16 0x1380))).map (fun t => (t.duty[3], t.faults, t.trace)) =
      some (0x80, [], []) := by decide
theorem test_step_placed_tick :
    (after (step (State.reset.withFetchWord 16 0x8000))).map (fun t => (t.acc, t.out)) =
      some (0x01, Vector.replicate 12 false) := by decide
/-- P6 of 95 section 3: the writer's frame goes out store by store, here `store c1, 0x10`. -/
theorem test_step_writer_turn :
    let s := { window 1 with
      trace := [.writerTurn], writer := { Writer.boot with queue := [.store 1 0x10, .gateOn] } }
    (after (step s)).map
      (fun t => (t.duty[1], t.winStores, t.writer.queue, t.position)) =
      some (0x10, 2, [.gateOn], 1) := by decide

end steps

section writer

/-- R171: at the writer's turn the older of two received bytes is read; 0xFB stops playback (R166). -/
theorem test_step_reads_the_oldest_byte :
    let s := { State.reset with
      trace := [.writerTurn], writer := { Writer.boot with playback := .playing, received := [0xFB, 0xFF] } }
    (after (step s)).map (fun t => (t.writer.playback, t.writer.received)) = some (.stopped, [0xFF]) := by decide
/-- P6 of 95 section 3: the 12th payload byte of command 0xFF queues the frame. -/
theorem test_writer_colour :
    (readByte Params.default 0xB0 { Writer.boot with
      phase := .colour [0x00, 0x10, 0x20, 0x30, 0x40, 0x50, 0x60, 0x70, 0x80, 0x90, 0xA0] }).queue.map encode =
      [0x3000, 0x1000, 0x1110, 0x1220, 0x1330, 0x1440, 0x1550, 0x1660, 0x1770, 0x1880, 0x1990, 0x1AA0, 0x1BB0, 0x4000] := by
  decide
/-- E8 of 95 section 1: speed 0 is stored as 1 and 255 as 10. -/
theorem test_writer_speed_clamp : (clampSpeed 0, clampSpeed 255) = (1, 10) := by decide
/-- P6 of 95 section 3: byte 0x42 is not a command. -/
theorem test_writer_unknown_byte : readByte Params.default 0x42 Writer.boot = Writer.boot := by decide
/-- R163, E4: a length byte of 61 asks for 60 frames, 12 bytes more than they hold. -/
theorem test_writer_length_clamp : (readLength 61 Writer.boot).phase = .uploadFrames 60 12 0 := by decide
/-- R163 step 5 with `n` = 0 (92 D18). -/
theorem test_writer_empty_upload :
    let wr := readByte Params.default 0x00 (readByte Params.default 0xFE { Writer.boot with playback := .playing })
    (wr.playback, wr.patternLength, wr.queue, wr.phase) = (.stopped, 0, [], .command) := by decide

end writer

section witnesses

/-! For each statement with hypotheses, values that meet all of them together; for one with several clauses, at the ends of
each clause's range. -/

theorem witness_DecodeInvertsEncode : (Instr.store 15 0xFF).wellFormed = true := by decide
theorem witness_EncodeInvertsDecode : decode 0x1FFF = .op (.store 15 0xFF) := by decide
theorem witness_DecoderReadsTheThreeFields :
    [0x1000, 0x2FFF, 0x3FFF, 0x4000, 0x8FFF, 0xF000, 0x0FFF].map (· / 4096) = [0x1, 0x2, 0x3, 0x4, 0x8, 0xF, 0x0] ∧
    (0x0 : Nat) ∉ [0x1, 0x2, 0x3, 0x4, 0x8, 0xF] := by decide
theorem witness_ReservedOpcodeIsRefused :
    [0x0000, 0x5000, 0x7FFF, 0x9000, 0xEFFF].all
      (fun w : Nat => w / 4096 ∈ [0x0, 0x5, 0x6, 0x7, 0x9, 0xA, 0xB, 0xC, 0xD, 0xE]) = true ∧
    (placed .writer 0xEFFF).trace = .op .writer 0xEFFF :: [] := by decide
theorem witness_ReservedFieldIsRefused :
    ((0x2F01#16).toNat / 4096 = 0x2 ∧ (0x2F01#16).toNat % 256 ≠ 0) ∧
    ((0xF001#16).toNat / 4096 ∈ [0x3, 0x4, 0x8, 0xF] ∧ (0xF001#16).toNat % 4096 ≠ 0) ∧
    (placed .environment 0xF001).trace = .op .environment 0xF001 :: [] := by decide
theorem witness_WrongAgentIsRefused :
    Agent.writer ≠ issuer .tick ∧ (placed .writer (encode .tick)).trace = .op .writer (encode .tick) :: [] := by decide
theorem witness_TraceLinesSpellTheirOperations : (15 : Nat) ≤ 15 ∧ (255 : Nat) ≤ 255 := by decide
theorem witness_StepRunsTheDecodedOperation :
    (placed .tickSource 0x8000).trace = .op .tickSource 0x8000 :: [] ∧ decode 0x8000 = .op .tick ∧
    issuer .tick = .tickSource ∧ issuer .tick ≠ .writer ∧ decode 0xEFFF = .invalid .reservedOpcode ∧
    decode 0x8001 = .invalid .reservedField := by decide
theorem witness_PlacedWordRunsNext : decodeTableWord 16 0xF000 = some .reset := by decide
theorem witness_WriterTurnRunsTheQueuedOperation :
    (let s := { State.reset with trace := [.writerTurn], writer := { Writer.boot with queue := [.gateOff] } }
     s.trace = .writerTurn :: [] ∧ s.writer.queue = .gateOff :: [] ∧ issuer .gateOff = .writer) ∧
    (let s := { State.reset with trace := [.writerTurn], writer := { Writer.boot with received := [0xFB, 0xFC] } }
     s.trace = .writerTurn :: [] ∧ s.writer.queue = [] ∧ s.writer.received = 0xFB :: [0xFC]) ∧
    (let s := { State.reset with trace := [.writerTurn] }
     s.trace = .writerTurn :: [] ∧ s.writer.queue = [] ∧ s.writer.received = []) ∧
    ({ State.reset with trace := [.serialByte 0xFF] } : State).trace = .serialByte 0xFF :: [] := by decide
theorem witness_NoEventNoChange : State.reset.trace = [] := by decide
theorem witness_StoreFollowsItsRule :
    12 ≤ (12 : Channel).toNat ∧ (11 : Channel).toNat < 12 ∧ State.reset.gate = true ∧
    ((window 11).gate = false ∧ (window 11).winStores < 12) ∧
    ((window 12).gate = false ∧ 12 ≤ (window 12).winStores) := by decide
theorem witness_StoreCompletes :
    channelAddr 11 < 12 ∧ State.reset.gate = true ∧ ((window 11).gate = true ∨ (window 11).winStores < 12) := by decide
theorem witness_LoadFollowsItsRule : (11 : Channel).toNat < 12 ∧ 12 ≤ (12 : Channel).toNat := by decide
theorem witness_ChannelOutOfRangeFaults :
    (12 ≤ (0x1C00#16).toNat / 256 % 16 ∧ (0x1C00#16).toNat / 4096 = 0x1) ∧
    (12 ≤ (0x2F00#16).toNat / 256 % 16 ∧ (0x2F00#16).toNat / 4096 = 0x2 ∧ (0x2F00#16).toNat % 256 = 0) := by decide
theorem witness_StoreFrame :
    (∃ t, exec (.store 11 0xFF) State.reset = .next t) ∧ (10 : Nat) ≠ channelAddr 11 ∧ State.reset.gate = true ∧
    (∃ t, exec (.store 12 0xFF) State.reset = .next t) ∧ 12 ≤ channelAddr 12 :=
  ⟨exec_next _ _, by decide, rfl, exec_next _ _, by decide⟩
theorem witness_LoadFrame : (∃ t, exec (.load 11) State.reset = .next t) ∧ channelAddr 11 < 12 :=
  ⟨exec_next _ _, by decide⟩
theorem witness_ReadsSeeTheLastStore :
    ∃ t u, execAll [.store 11 0x2A, .tick] State.reset = .next t ∧ services .tick t = true ∧ exec .tick t = .next u :=
  ⟨_, _, rfl, rfl, rfl⟩
theorem witness_StoreTwiceIsStoreOnce :
    ∃ t u, exec (.store 0 0x01) (window 12) = .next t ∧ exec (.store 0 0x01) t = .next u :=
  ⟨_, _, rfl, rfl⟩
theorem witness_OverrunExactlyAtTheThirteenthStore :
    let is := Instr.tick :: .gateOff :: .load 0 :: List.replicate 13 (.store 11 0x01)
    staysGated is ∧ (window 0).gate = false ∧ (window 0).winStores = 0 ∧
    (∃ t, execAll is (window 0) = .next t) ∧ (∀ i ∈ is, missesTheDutyFile i = false) ∧ is.countP storesInRange = 13 :=
  ⟨by simp [staysGated], rfl, rfl, execAll_next _ _, by decide, by decide⟩
theorem witness_StoreReachesTheOutputAtTheNextService :
    (3 : Channel).toNat < 12 ∧ (∀ x, Instr.store 3 x ∉ [Instr.store 4 0x01, .tick]) ∧
    Instr.reset ∉ [Instr.store 4 0x01, .tick] ∧
    ∃ t r, exec (.store 3 0x80) State.reset = .next t ∧ serviceLog [.store 4 0x01, .tick] t = r :: [] :=
  ⟨by decide, by simp, by simp, _, _, rfl, rfl⟩
theorem witness_GateOffFollowsItsRule :
    State.reset.gate = true ∧ (window 5).gate = false ∧ staysGated [.store 0 0x01, .tick, .gateOff] ∧
    ∃ t, exec .gateOff State.reset = .next t :=
  ⟨rfl, rfl, by simp [staysGated], exec_next _ _⟩
theorem witness_GateOnFollowsItsRule :
    State.reset.gate = true ∧ ((window 12).gate = false ∧ (window 12).pend = false) ∧
    (let s := { window 12 with pend := true }; s.gate = false ∧ s.pend = true) ∧
    (let s := State.resetWith { Params.default with gatedTickPolicy := .drop }
     s.Inv ∧ s.params.gatedTickPolicy = .drop) :=
  ⟨rfl, by decide, by decide, ⟨by simp [State.resetWith], fun _ => rfl, fun _ => rfl, by simp [State.resetWith]⟩, rfl⟩
theorem witness_GateAndPendHaveTheirWriters :
    ∃ t, exec .tick (window 0) = .next t ∧ t.pend ≠ (window 0).pend ∧ (window 0).pend = false ∧ t.pend = true ∧
      ∃ u, exec .gateOn (window 0) = .next u ∧ u.gate ≠ (window 0).gate :=
  ⟨_, rfl, by decide, rfl, rfl, _, rfl, by decide⟩
theorem witness_GateAndTickFrames :
    (∃ t, exec .gateOff State.reset = .next t) ∧ (∃ t, exec .gateOn (window 0) = .next t) ∧
    (∃ t, exec .tick State.reset = .next t) ∧ State.reset.gate = true ∧
    (∃ t, exec .tick (window 0) = .next t) ∧ (window 0).gate = false :=
  ⟨exec_next _ _, exec_next _ _, exec_next _ _, rfl, exec_next _ _, rfl⟩
theorem witness_GatedUpdateIsAllOrNothing :
    ∃ s t u r, execAll [.tick] State.reset = .next s ∧ s.gate = true ∧ staysGated [.store 0 0xFF, .tick] ∧
      execAll (.gateOff :: [.store 0 0xFF, .tick]) s = .next t ∧ t.pend = true ∧
      (∀ ch v, Instr.store ch v ∉ [Instr.tick]) ∧ Instr.reset ∉ [Instr.tick] ∧
      (serviceLog (.gateOn :: [.tick]) t).head? = some r ∧ exec .reset t = .next u :=
  ⟨_, _, _, _, rfl, rfl, by simp [staysGated], rfl, rfl, by simp, by simp, rfl, rfl⟩
theorem witness_UnclosedWindowFreezesTheOutputs :
    (window 0).gate = false ∧ staysGated [.tick, .tick, .store 0 0x01] ∧
    ∃ t, execAll [.tick, .tick, .store 0 0x01] (window 0) = .next t :=
  ⟨rfl, by simp [staysGated], execAll_next _ _⟩
theorem witness_WindowMovesTheRampAtMostOnce :
    State.reset.Inv ∧ State.reset.gate = true ∧ staysGated [.tick, .tick] ∧
    (∃ t, execAll (.gateOff :: [.tick, .tick] ++ [.gateOn]) State.reset = .next t) ∧
    State.reset.params.gatedTickPolicy = .defer1 ∧
    (let s := State.resetWith { Params.default with gatedTickPolicy := .drop }
     s.Inv ∧ s.gate = true ∧ s.params.gatedTickPolicy = .drop) :=
  ⟨⟨by simp [State.reset, State.resetWith], fun _ => rfl, fun _ => rfl, by simp [State.reset, State.resetWith]⟩, rfl,
   by simp [staysGated], execAll_next _ _, rfl,
   ⟨by simp [State.resetWith], fun _ => rfl, fun _ => rfl, by simp [State.resetWith]⟩, rfl, rfl⟩
theorem witness_TickFollowsItsRule :
    State.reset.gate = true ∧
    ((window 0).gate = false ∧ (window 0).params.gatedTickPolicy = .defer1 ∧ (window 0).pend = false) ∧
    (let s := { window 0 with pend := true }
     s.gate = false ∧ s.params.gatedTickPolicy = .defer1 ∧ s.pend = true) ∧
    (let s := { window 0 with params := { Params.default with gatedTickPolicy := .drop } }
     s.gate = false ∧ s.params.gatedTickPolicy = .drop) := by decide
theorem witness_EqualDutiesGiveEqualLevels :
    ∃ r ∈ serviceLog [.tick] State.reset, r.duty[(0 : Fin 12)] = r.duty[(11 : Fin 12)] :=
  ⟨_, List.mem_cons_self, by decide⟩
theorem witness_OutputsHoldBetweenServices :
    (∃ t, exec (.store 0 0xFF) State.reset = .next t) ∧ services (.store 0 0xFF) State.reset = false ∧
    Instr.store 0 0xFF ≠ .reset :=
  ⟨exec_next _ _, rfl, by decide⟩
theorem witness_AccStepsOnlyOnServices : ∃ t, exec .tick State.reset = .next t := exec_next _ _

/-- 256 ticks from reset are a PWM period (R106). -/
theorem ticks_from_reset_isPeriod : IsPeriod (serviceLog (List.replicate 256 .tick) State.reset) := by
  refine ⟨(serviceLog_ticks 256 State.reset rfl).1, ?_⟩
  have h : exec .tick State.reset = .next (serviceTick State.reset) := rfl
  rw [List.replicate_succ, serviceLog_cons h]
  rfl

theorem witness_DutyRatioOverAPeriod :
    Instr.reset ∉ List.replicate 256 Instr.tick ∧ IsPeriod (serviceLog (List.replicate 256 .tick) State.reset) ∧
    ∀ r ∈ serviceLog (List.replicate 256 .tick) State.reset, r.duty[(0 : Fin 12)] = State.reset.duty[(0 : Fin 12)] :=
  ⟨fun h => absurd (List.eq_of_mem_replicate h) (by decide), ticks_from_reset_isPeriod,
   fun r hr => by rw [(serviceLog_ticks 256 State.reset rfl).2 r hr]⟩
theorem witness_EdgesOfAConstantDuty :
    Instr.reset ∉ [Instr.tick, .tick] ∧
    ∃ r r', (∀ x ∈ serviceLog [.tick, .tick] State.reset, x.duty[(0 : Fin 12)] = 0x00) ∧
      (serviceLog [.tick, .tick] State.reset)[0]? = some r ∧ (serviceLog [.tick, .tick] State.reset)[0 + 1]? = some r' := by
  refine ⟨by simp, _, _, ?_, rfl, rfl⟩
  intro x hx
  rw [(serviceLog_ticks 2 State.reset rfl).2 x hx]
  decide
theorem witness_EdgesOfAConstantDuty_rising :
    let s := { State.reset with duty := Vector.replicate 12 0x01, acc := 0xFF }
    (0x01 : Byte) ≠ 0 ∧ ∃ r r', (∀ x ∈ serviceLog [.tick, .tick] s, x.duty[(0 : Fin 12)] = 0x01) ∧
      (serviceLog [.tick, .tick] s)[0]? = some r ∧ (serviceLog [.tick, .tick] s)[0 + 1]? = some r' := by
  refine ⟨by decide, _, _, ?_, rfl, rfl⟩
  intro x hx
  rw [(serviceLog_ticks 2 _ rfl).2 x hx]
  decide
theorem witness_DutyChangeInMidPeriod :
    Instr.reset ∉ List.replicate 256 Instr.tick ∧ IsPeriod (serviceLog (List.replicate 256 .tick) State.reset) ∧
    (128 : Nat) ≤ 256 ∧
    ∀ (j : Nat) (r : Service), (serviceLog (List.replicate 256 .tick) State.reset)[j]? = some r →
      r.duty[(0 : Fin 12)] = if j < 128 then 0x00 else 0x00 :=
  ⟨fun h => absurd (List.eq_of_mem_replicate h) (by decide), ticks_from_reset_isPeriod, by decide, fun j r hr => by
    rw [(serviceLog_ticks 256 State.reset rfl).2 r (List.mem_of_getElem? hr), ite_self]
    decide⟩
theorem witness_TicksAreAccountedFor :
    Instr.reset ∉ [Instr.gateOff, .tick, .tick] ∧
    ∃ s t, exec .reset State.reset = .next s ∧ execAll [.gateOff, .tick, .tick] s = .next t :=
  ⟨by simp, _, _, rfl, rfl⟩
theorem witness_ResetFrame : ∃ t, exec .reset (window 3) = .next t := exec_next _ _
theorem witness_ResetKeepsFaultsAndLost :
    let s := { window 3 with faults := [⟨.wrongAgent, 0x8000, 1⟩] }
    (∃ t, exec .reset s = .next t) ∧ s.faults ≠ [] :=
  ⟨exec_next _ _, by decide⟩
theorem witness_InitialStateIsAsAfterReset :
    let s := { window 3 with draws := 0 }
    s.params = Params.default ∧ s.lost = 0 ∧ s.faults = [] ∧ s.draws = 0 ∧ s.rdata = none ∧ s.position = 0 ∧
      s.trace = [] := by decide
theorem witness_FirstServiceForgetsTheDraw :
    Instr.reset ∉ [Instr.store 0 0x01, .tick] ∧ serviceLog [.store 0 0x01, .tick] State.reset ≠ [] ∧
    ∃ t, execAll [.store 0 0x01, .tick] State.reset = .next t :=
  ⟨by simp, List.cons_ne_nil _ _, execAll_next _ _⟩
theorem witness_StepKeepsTheInvariants :
    let s := { window 12 with trace := [.op .writer 0x1502] }
    s.Inv ∧ ∃ t, step s = .next t :=
  ⟨⟨fun _ => rfl, by simp [window], fun _ => rfl, by simp [window]⟩, _, rfl⟩
theorem witness_EveryReachableStateMeetsTheInvariants :
    ∃ t, Host.Core.run Sys2Proof.core 1
      ({ State.resetWith Params.default with trace := [.op .tickSource 0x8000] } : State) = .next t :=
  ⟨_, rfl⟩
theorem witness_StepKeepsFaultsInOrder :
    let s := { State.reset with faults := [⟨.wrongAgent, 0x8000, 1⟩], position := 1, trace := [.op .writer 0x0000] }
    s.FaultsInOrder ∧ ∃ t, step s = .next t :=
  ⟨⟨by simp, by simp⟩, _, rfl⟩
theorem witness_FaultRecordsAreNeverRemoved :
    ∃ t, step { State.reset with trace := [.op .writer 0x0000] } = .next t := ⟨_, rfl⟩
theorem witness_DutyHasTwoWriters :
    ∃ t, exec (.store 0 0x01) State.reset = .next t ∧ t.duty ≠ State.reset.duty := ⟨_, rfl, by decide⟩
theorem witness_ParametersNeverChange : ∃ t, step State.reset = .next t := ⟨_, rfl⟩
theorem witness_FrameUpdatesEveryChannel : State.reset.gate = true := rfl
theorem witness_DocumentedWriterKeepsItsContract :
    let s := { State.reset with trace := [.writerTurn] }
    s.trace = .writerTurn :: [] ∧ documentedEvent .writerTurn = true ∧ WriterContract s ∧ ∃ t, step s = .next t :=
  ⟨rfl, rfl, ⟨.inl ⟨rfl, rfl, .inl rfl⟩, fun _ => ⟨rfl, rfl⟩⟩, _, rfl⟩
theorem witness_DocumentedServiceSeesAWholeFrame :
    let s := { State.reset with trace := [.op .tickSource 0x8000] }
    s.trace = .op .tickSource 0x8000 :: [] ∧ documentedEvent (.op .tickSource 0x8000) = true ∧ WriterContract s ∧
      delivered s = some .tick ∧ services .tick s = true :=
  ⟨rfl, by decide, ⟨.inl ⟨rfl, rfl, .inl rfl⟩, fun _ => ⟨rfl, rfl⟩⟩, by decide, rfl⟩
/-- The other side: a whole frame is stored, and the writer's `GATE_ON` services the deferred tick. -/
theorem witness_DocumentedServiceSeesAWholeFrame_gateOn :
    let s := { window 12 with pend := true, trace := [.writerTurn], writer := { Writer.boot with queue := [.gateOn] } }
    documentedEvent .writerTurn = true ∧ WriterContract s ∧ delivered s = some .gateOn ∧ services .gateOn s = true := by
  refine ⟨rfl, ⟨.inr ⟨Vector.replicate 12 0x00, 12, ⟨by decide, by decide, rfl, rfl, by decide⟩⟩, ?_⟩, rfl, rfl⟩
  intro h
  exact absurd rfl h
theorem witness_ColourCommandQueuesItsFrame :
    Writer.boot.phase = .command ∧ Writer.boot.queue = [] ∧ (List.replicate 11 (0x10 : Byte)).length < 12 ∧
    (List.replicate 12 (0x10 : Byte)).length = 12 := by decide
theorem witness_UploadStoresTheClampedPattern :
    Writer.boot.phase = .command ∧ Writer.boot.queue = [] ∧
    (List.replicate 720 (0x10 : Byte)).length = min (61 : Byte).toNat 60 * 12 ∧
    (List.replicate 12 (0x11 : Byte)).length =
      (if ({ Params.default with drainExcess := true } : Params).drainExcess then ((61 : Byte).toNat - 60) * 12 else 0) ∧
    ([] : List Byte).length = min (0 : Byte).toNat 60 * 12 ∧ 0 < (61 : Byte).toNat ∧ 0 < 1 ∧
    1 < (0xFE :: (0 : Byte) :: ([] ++ [])).length := by
  refine ⟨rfl, rfl, ?_, ?_, rfl, by decide, by decide, by decide⟩
  · rw [List.length_replicate]; decide
  · rw [List.length_replicate]; decide
theorem witness_OtherCommandsDoWhatTheyAreSaidTo :
    Writer.boot.phase = .command ∧ Writer.boot.patternLength = 0 ∧
    (let wr := { Writer.boot with patternLength := 60, store := List.replicate 12 0x10 }
     0 < wr.patternLength ∧ wr.store[11]? = some 0x10) ∧
    (0xFA : Byte).toNat < 0xFB ∧
    (let s := { State.reset with
      trace := [.advance (Vector.replicate 12 0x10)], writer := { Writer.boot with playback := .playing } }
     s.trace = .advance (Vector.replicate 12 0x10) :: [] ∧
     s.writer.playback = .playing ∧ s.writer.phase = .command ∧ s.writer.queue = []) ∧
    ¬ (State.reset.writer.playback = .playing ∧ State.reset.writer.phase = .command ∧ State.reset.writer.queue = []) := by
  decide

end witnesses

end Sys2Proof.Tests
end

section
/-! PROOFS. The statements of 00_scope.md: the open parameters (R6), and what one event of the trace does (R9). -/

namespace Sys2Proof.Machine

section parameters

/-- R6: no operation assigns a parameter. -/
theorem exec_keeps_params {i : Instr} {s t : State} (h : exec i s = .next t) : t.params = s.params := by
  cases i with
  | store ch v =>
    rcases exec_store_cases h with ⟨-, rfl⟩ | ⟨-, ⟨-, rfl⟩ | ⟨-, -, rfl⟩ | ⟨-, -, rfl⟩⟩ <;> rfl
  | load ch => rcases exec_load_cases h with ⟨-, rfl⟩ | ⟨-, rfl⟩ <;> rfl
  | gateOff => rcases exec_gateOff_cases h with ⟨-, rfl⟩ | ⟨-, rfl⟩ <;> rfl
  | gateOn => rcases exec_gateOn_cases h with ⟨-, rfl⟩ | ⟨-, -, rfl⟩ | ⟨-, -, rfl⟩ <;> rfl
  | tick => rcases exec_tick_cases h with ⟨-, rfl⟩ | ⟨-, -, -, rfl⟩ | ⟨-, -, rfl⟩ <;> rfl
  | reset => rw [exec_reset_cases h]; rfl

/-- Taking an event off the trace leaves the parameters alone. -/
theorem ReadyToOperate.params_eq {s s' : State} (h : ReadyToOperate s s') : s'.params = s.params := by
  unfold ReadyToOperate at h
  rw [h]

/-- Settles O54: of the four things a step can do, only executing an operation could reach a parameter, and
`exec_keeps_params` says that it does not. -/
theorem parametersNeverChange : Obligations.ParametersNeverChange := by
  intro s t h
  rcases step_cases h with rfl | ⟨i, s', hs', hi⟩ | ⟨r, w, s', hs', rfl⟩ | ht
  · rfl
  · exact (exec_keeps_params hi).trans hs'.params_eq
  · exact hs'.params_eq
  · rw [ht]

end parameters

section operate

variable {a : Agent} {w : Word} {i : Instr}

/-- R184: a word from the issuer of its operation executes. -/
theorem operate_of_issuer (hw : decode w = .op i) (ha : issuer i = a) (s : State) :
    operate a w s = exec i s := by
  simp only [operate, hw, if_pos ha]

/-- R75, R182: a word from another agent is only recorded. -/
theorem operate_of_wrongAgent (hw : decode w = .op i) (ha : issuer i ≠ a) (s : State) :
    operate a w s = .next (addRecord .wrongAgent w s) := by
  simp only [operate, hw, if_neg ha, refuse]

/-- R76, R77, R182: a word that spells no operation is only recorded, whoever sent it. -/
theorem operate_of_invalid {r : Reject} (hw : decode w = .invalid r) (s : State) :
    operate a w s = .next (addRecord (rejectReason r) w s) := by
  simp only [operate, hw, refuse]

/-- R9: a word at the front of the trace is taken off it and operated. -/
theorem step_of_op {s : State} {rest : List Event} (h : s.trace = .op a w :: rest) :
    step s = operate a w (accept { s with trace := rest }) := by
  simp only [step, nextEvent, h, runEvent]

end operate

/-- Settles O10: the step operates the word, and the decoder's answer and the issuer decide which of R184's cases it is. -/
theorem stepRunsTheDecodedOperation : Obligations.StepRunsTheDecodedOperation := by
  intro s a w rest h
  rw [step_of_op h]
  exact ⟨fun i hw ha => operate_of_issuer hw ha _, fun i hw ha => operate_of_wrongAgent hw ha _,
    fun hw => operate_of_invalid hw _, fun hw => operate_of_invalid hw _⟩

section placedWord

/-- Reading the two bytes of a word reads the word back (R53). -/
theorem readTrace_wordBytes (w : Word) : readTrace (wordBytes w) = .word w (decode w) [] := by
  simp only [wordBytes, readTrace, wordBytes_append]

/-- A table word reads as an operation exactly where the decoder takes it to that operation. -/
theorem decodeTableWord_eq_some_iff {nbits w : Nat} {i : Instr} :
    decodeTableWord nbits w = some i ↔ decode (tableWord nbits w) = .op i := by
  rw [decodeTableWord, readTrace_wordBytes]
  cases decode (tableWord nbits w) <;> simp

/-- The rightful agent of a word that spells an operation is that operation's issuer (log entry 12). -/
theorem rightfulAgent_of_decode {w : Word} {i : Instr} (hw : decode w = .op i) : rightfulAgent w = issuer i := by
  simp only [rightfulAgent, hw]

end placedWord

/-- Settles O11: the word stands at the front of the trace with its operation's issuer, so R184's executing case applies. -/
theorem placedWordRunsNext : Obligations.PlacedWordRunsNext := by
  intro s nbits w i h
  have hw : decode (tableWord nbits w) = .op i := decodeTableWord_eq_some_iff.mp h
  have hplaced : (s.withFetchWord nbits w).trace = .op (rightfulAgent (tableWord nbits w)) (tableWord nbits w) :: s.trace :=
    rfl
  rw [step_of_op hplaced, operate_of_issuer hw (rightfulAgent_of_decode hw).symm]
  rfl

end Sys2Proof.Machine
end

section
/-! PROOFS. The statements of 10_state.md: the writers of each register (R22, R24, R26, R27), the invariants (R33) and the
records of `FAULTS` (R29). -/

namespace Sys2Proof.Machine

section frames

variable {s t : State}

/-- R120: the fields `STORE` may write. -/
theorem exec_store_frame {ch : Channel} {v : Byte} (h : exec (.store ch v) s = .next t) :
    t = { s with duty := t.duty, winStores := t.winStores, faults := t.faults } := by
  rcases exec_store_cases h with ⟨-, rfl⟩ | ⟨-, ⟨-, rfl⟩ | ⟨-, -, rfl⟩ | ⟨-, -, rfl⟩⟩ <;> rfl

/-- R121: the fields `LOAD` may write. -/
theorem exec_load_frame {ch : Channel} (h : exec (.load ch) s = .next t) :
    t = { s with rdata := t.rdata, faults := t.faults } := by
  rcases exec_load_cases h with ⟨-, rfl⟩ | ⟨-, rfl⟩ <;> rfl

/-- R140: the fields `GATE_OFF` may write. -/
theorem exec_gateOff_frame (h : exec .gateOff s = .next t) :
    t = { s with gate := t.gate, winStores := t.winStores } := by
  rcases exec_gateOff_cases h with ⟨-, rfl⟩ | ⟨-, rfl⟩ <;> rfl

/-- R141: the fields `GATE_ON` may write. -/
theorem exec_gateOn_frame (h : exec .gateOn s = .next t) :
    t = { s with gate := t.gate, winStores := t.winStores, pend := t.pend, out := t.out, acc := t.acc } := by
  rcases exec_gateOn_cases h with ⟨-, rfl⟩ | ⟨-, -, rfl⟩ | ⟨-, -, rfl⟩ <;> rfl

/-- R100: the fields `TICK` may write. -/
theorem exec_tick_frame (h : exec .tick s = .next t) :
    t = { s with out := t.out, acc := t.acc, pend := t.pend, lost := t.lost } := by
  rcases exec_tick_cases h with ⟨-, rfl⟩ | ⟨-, -, -, rfl⟩ | ⟨-, -, rfl⟩ <;> rfl

/-- R210, R211: the fields `RESET` may write. -/
theorem exec_reset_frame (h : exec .reset s = .next t) :
    t = { s with duty := t.duty, acc := t.acc, out := t.out, gate := t.gate, pend := t.pend,
                 winStores := t.winStores, writer := t.writer, draws := t.draws } := by
  rw [exec_reset_cases h]; rfl

end frames

section invariants

variable {s t : State}

/-- R33 reads four fields only. -/
theorem State.Inv.congr (h : s.Inv) (hgate : t.gate = s.gate) (hpend : t.pend = s.pend)
    (hwin : t.winStores = s.winStores) (hparams : t.params = s.params) : t.Inv where
  pendNeedsClosedGate := by rw [hgate, hpend]; exact h.pendNeedsClosedGate
  openGateCountsNothing := by rw [hgate, hwin]; exact h.openGateCountsNothing
  dropNeverPends := by rw [hparams, hpend]; exact h.dropNeverPends
  winStoresBounded := by rw [hwin]; exact h.winStoresBounded

/-- R33 holds, whatever the gate, while no tick is deferred and no store is counted. -/
theorem inv_of_nothing_pending_or_counted (hpend : t.pend = false) (hwin : t.winStores = 0) : t.Inv where
  pendNeedsClosedGate hp := by simp [hpend] at hp
  openGateCountsNothing _ := hwin
  dropNeverPends _ := hpend
  winStoresBounded := by omega

/-- R33 with the gate closed: under `DROP` no tick is deferred, and at most 13 stores are counted. -/
theorem inv_of_gate_closed (hgate : t.gate = false) (hdrop : t.params.gatedTickPolicy = .drop → t.pend = false)
    (hwin : t.winStores ≤ 13) : t.Inv where
  pendNeedsClosedGate _ := hgate
  openGateCountsNothing hg := by simp [hgate] at hg
  dropNeverPends := hdrop
  winStoresBounded := hwin

/-- R33: every operation keeps the invariants. Each of its outcomes leaves the four fields alone, or leaves nothing deferred
or counted, or leaves the gate closed. -/
theorem exec_keeps_inv {i : Instr} (hs : s.Inv) (h : exec i s = .next t) : t.Inv := by
  cases i with
  | store ch v =>
    rcases exec_store_cases h with ⟨-, rfl⟩ | ⟨-, ⟨-, rfl⟩ | ⟨hgate, hwin, rfl⟩ | ⟨hgate, -, rfl⟩⟩
    · exact hs.congr rfl rfl rfl rfl
    · exact hs.congr rfl rfl rfl rfl
    · exact inv_of_gate_closed hgate hs.dropNeverPends (Nat.le_succ_of_le hwin)
    · exact inv_of_gate_closed hgate hs.dropNeverPends le_rfl
  | load ch =>
    rw [exec_load_frame h]
    exact hs.congr rfl rfl rfl rfl
  | gateOff =>
    rcases exec_gateOff_cases h with ⟨-, rfl⟩ | ⟨-, rfl⟩
    · exact inv_of_gate_closed rfl hs.dropNeverPends (Nat.zero_le _)
    · exact hs
  | gateOn =>
    rcases exec_gateOn_cases h with ⟨-, rfl⟩ | ⟨-, hpend, rfl⟩ | ⟨-, -, rfl⟩
    · exact hs
    · exact inv_of_nothing_pending_or_counted hpend rfl
    · exact inv_of_nothing_pending_or_counted rfl rfl
  | tick =>
    rcases exec_tick_cases h with ⟨-, rfl⟩ | ⟨hgate, hdefer, -, rfl⟩ | ⟨-, -, rfl⟩
    · exact hs.congr rfl rfl rfl rfl
    · exact inv_of_gate_closed hgate (fun hdrop => by simp [hdefer] at hdrop) hs.winStoresBounded
    · exact hs.congr rfl rfl rfl rfl
  | reset =>
    rw [exec_reset_cases h]
    exact inv_of_nothing_pending_or_counted rfl rfl

/-- Taking an event off the trace reaches no field of R33. -/
theorem ReadyToOperate.inv (h : ReadyToOperate s t) (hs : s.Inv) : t.Inv := by
  unfold ReadyToOperate at h
  rw [h]
  exact hs.congr rfl rfl rfl rfl

/-- Settles O49: of the four things a step can do, only executing an operation could reach a field of R33, and
`exec_keeps_inv` says that it keeps the invariants. -/
theorem stepKeepsTheInvariants : Obligations.StepKeepsTheInvariants := by
  intro s t hs h
  rcases step_cases h with rfl | ⟨i, s', hs', hi⟩ | ⟨r, w, s', hs', rfl⟩ | ht
  · exact hs
  · exact exec_keeps_inv (hs'.inv hs) hi
  · exact (hs'.inv hs).congr rfl rfl rfl rfl
  · rw [ht]
    exact hs.congr rfl rfl rfl rfl

/-- A run goes on from the state its first step ends in. -/
theorem run_succ_of_step {s u : State} (h : step s = .next u) (k : Nat) :
    Host.Core.run Sys2Proof.core (k + 1) s = Host.Core.run Sys2Proof.core k u := by
  have hcore : Sys2Proof.core.step s = .next u := h
  simp only [Host.Core.run, hcore]

/-- A run that ends in a state took its first step to some state. -/
theorem step_next_of_run_succ {s t : State} {k : Nat} (h : Host.Core.run Sys2Proof.core (k + 1) s = .next t) :
    ∃ u, step s = .next u := by
  cases hu : step s with
  | next u => exact ⟨u, rfl⟩
  | fault r => exact nomatch r
  | refused r =>
    have hcore : Sys2Proof.core.step s = .refused r := hu
    simp [Host.Core.run, hcore] at h

/-- What every step keeps, a run of any number of steps keeps. -/
theorem run_keeps {P : State → Prop} (hstep : ∀ s t, P s → step s = .next t → P t) {k : Nat} {s t : State}
    (hs : P s) (h : Host.Core.run Sys2Proof.core k s = .next t) : P t := by
  induction k generalizing s with
  | zero => exact Host.Outcome.next.inj h ▸ hs
  | succ k ih =>
    obtain ⟨u, hu⟩ := step_next_of_run_succ h
    rw [run_succ_of_step hu] at h
    exact ih (hstep s u hs hu) h

/-- Settles O48: reset leaves nothing deferred and nothing counted. -/
theorem invariantsHoldAfterReset : Obligations.InvariantsHoldAfterReset :=
  fun _ => inv_of_nothing_pending_or_counted rfl rfl

/-- Settles O50: the invariants hold after reset, placing a trace does not reach them, and every step keeps them. -/
theorem everyReachableStateMeetsTheInvariants : Obligations.EveryReachableStateMeetsTheInvariants := by
  intro p trace k t h
  have hplaced : ({ State.resetWith p with trace := trace } : State).Inv :=
    (invariantsHoldAfterReset p).congr rfl rfl rfl rfl
  exact run_keeps stepKeepsTheInvariants hplaced h

end invariants

section records

variable {s t : State}

/-- Only the interface moves the position on (log entry 8). -/
theorem exec_keeps_position {i : Instr} (h : exec i s = .next t) : t.position = s.position := by
  cases i with
  | store ch v => rw [exec_store_frame h]
  | load ch => rw [exec_load_frame h]
  | gateOff => rw [exec_gateOff_frame h]
  | gateOn => rw [exec_gateOn_frame h]
  | tick => rw [exec_tick_frame h]
  | reset => rw [exec_reset_frame h]

/-- R29, R181: an operation leaves `FAULTS` alone or appends one record at the current position. -/
theorem exec_faults_cases {i : Instr} (h : exec i s = .next t) :
    t.faults = s.faults ∨ ∃ r w, t.faults = s.faults ++ [⟨r, w, s.position⟩] := by
  cases i with
  | store ch v =>
    rcases exec_store_cases h with ⟨-, rfl⟩ | ⟨-, ⟨-, rfl⟩ | ⟨-, -, rfl⟩ | ⟨-, -, rfl⟩⟩
    · exact .inr ⟨_, _, rfl⟩
    · exact .inl rfl
    · exact .inl rfl
    · exact .inr ⟨_, _, rfl⟩
  | load ch =>
    rcases exec_load_cases h with ⟨-, rfl⟩ | ⟨-, rfl⟩
    · exact .inl rfl
    · exact .inr ⟨_, _, rfl⟩
  | gateOff => exact .inl (by rw [exec_gateOff_frame h])
  | gateOn => exact .inl (by rw [exec_gateOn_frame h])
  | tick => exact .inl (by rw [exec_tick_frame h])
  | reset => exact .inl (by rw [exec_reset_frame h])

/-- An operation that arrives has the next position (log entry 8). -/
theorem ReadyToOperate.position_eq (h : ReadyToOperate s t) : t.position = s.position + 1 := by
  unfold ReadyToOperate at h
  rw [h]

/-- An operation that arrives finds `FAULTS` as it was. -/
theorem ReadyToOperate.faults_eq (h : ReadyToOperate s t) : t.faults = s.faults := by
  unfold ReadyToOperate at h
  rw [h]

/-- R29, R181, R182: a step leaves `FAULTS` alone, or it moves on to the next position and appends one record there. -/
theorem step_faults_cases (h : step s = .next t) :
    (t.faults = s.faults ∧ s.position ≤ t.position) ∨
    (t.position = s.position + 1 ∧ ∃ r w, t.faults = s.faults ++ [⟨r, w, t.position⟩]) := by
  rcases step_cases h with rfl | ⟨i, s', hs', hi⟩ | ⟨r, w, s', hs', rfl⟩ | ht
  · exact .inl ⟨rfl, le_rfl⟩
  · have hpos : t.position = s'.position := exec_keeps_position hi
    rcases exec_faults_cases hi with hf | ⟨r, w, hf⟩
    · exact .inl ⟨hf.trans hs'.faults_eq, by rw [hpos, hs'.position_eq]; omega⟩
    · exact .inr ⟨hpos.trans hs'.position_eq, r, w, by rw [hf, hs'.faults_eq, hpos]⟩
  · exact .inr ⟨hs'.position_eq, r, w, by simp [hs'.faults_eq]⟩
  · exact .inl (by rw [ht]; exact ⟨rfl, le_rfl⟩)

/-- Settles O51: a new record stands at a position beyond the one that bounds the records before it. -/
theorem stepKeepsFaultsInOrder : Obligations.StepKeepsFaultsInOrder := by
  rintro s t ⟨hrising, hbounded⟩ h
  rcases step_faults_cases h with ⟨hf, hpos⟩ | ⟨hpos, r, w, hf⟩
  · refine ⟨hf ▸ hrising, fun x hx => ?_⟩
    exact (hbounded x (hf ▸ hx)).trans hpos
  · have hold : ∀ x ∈ s.faults, x.position < t.position := fun x hx => by
      have := hbounded x hx
      omega
    refine ⟨?_, ?_⟩
    · rw [hf, List.pairwise_append]
      exact ⟨hrising, List.pairwise_singleton _ _, by simpa using hold⟩
    · intro x hx
      rw [hf, List.mem_append, List.mem_singleton] at hx
      rcases hx with hx | rfl
      · exact (hold x hx).le
      · exact le_rfl

/-- Settles O52: the records a step adds are none, or the one at the position it moved on to. -/
theorem faultRecordsAreNeverRemoved : Obligations.FaultRecordsAreNeverRemoved := by
  intro s t h
  rcases step_faults_cases h with ⟨hf, -⟩ | ⟨-, r, w, hf⟩
  · exact ⟨[], by simp [hf]⟩
  · exact ⟨[⟨r, w, t.position⟩], by simp [hf]⟩

end records

section registerWriters

variable {i : Instr} {s t : State}

/-- R26: the operations that write `GATE`. -/
theorem gate_writers (h : exec i s = .next t) (hne : t.gate ≠ s.gate) :
    i = .gateOff ∨ i = .gateOn ∨ i = .reset := by
  cases i with
  | store ch v => exact absurd (congrArg State.gate (exec_store_frame h)) hne
  | load ch => exact absurd (congrArg State.gate (exec_load_frame h)) hne
  | tick => exact absurd (congrArg State.gate (exec_tick_frame h)) hne
  | gateOff => exact .inl rfl
  | gateOn => exact .inr (.inl rfl)
  | reset => exact .inr (.inr rfl)

/-- R27: the operations that write `PEND`. -/
theorem pend_writers (h : exec i s = .next t) (hne : t.pend ≠ s.pend) :
    i = .tick ∨ i = .gateOn ∨ i = .reset := by
  cases i with
  | store ch v => exact absurd (congrArg State.pend (exec_store_frame h)) hne
  | load ch => exact absurd (congrArg State.pend (exec_load_frame h)) hne
  | gateOff => exact absurd (congrArg State.pend (exec_gateOff_frame h)) hne
  | tick => exact .inl rfl
  | gateOn => exact .inr (.inl rfl)
  | reset => exact .inr (.inr rfl)

/-- R27, R100: of the writers of `PEND`, only a `TICK` that defers sets it. -/
theorem pend_set_by_deferred_tick (h : exec i s = .next t) (hs : s.pend = false) (ht : t.pend = true) :
    i = .tick ∧ s.gate = false ∧ s.params.gatedTickPolicy = .defer1 := by
  rcases pend_writers h (by simp [hs, ht]) with rfl | rfl | rfl
  · rcases exec_tick_cases h with ⟨-, rfl⟩ | ⟨hgate, hdefer, -, -⟩ | ⟨-, -, rfl⟩
    · simp [hs] at ht
    · exact ⟨rfl, hgate, hdefer⟩
    · simp [hs] at ht
  · rcases exec_gateOn_cases h with ⟨-, rfl⟩ | ⟨-, -, rfl⟩ | ⟨-, -, rfl⟩ <;> simp [hs] at ht
  · rw [exec_reset_cases h] at ht
    simp at ht

/-- Settles O27: the writers of `GATE` and `PEND` are what the operations' frames leave over. -/
theorem gateAndPendHaveTheirWriters : Obligations.GateAndPendHaveTheirWriters :=
  fun _ _ _ h => ⟨gate_writers h, pend_writers h, pend_set_by_deferred_tick h⟩

/-- Settles O36: `ACC` is outside the frame of `STORE`, `LOAD` and `GATE_OFF`; `GATE_ON` and `TICK` step it exactly in the
outcome that services a tick. -/
theorem accStepsOnlyOnServices : Obligations.AccStepsOnlyOnServices := by
  intro i s t h
  cases i with
  | store ch v => rw [exec_store_frame h]; rfl
  | load ch => rw [exec_load_frame h]; rfl
  | gateOff => rw [exec_gateOff_frame h]; rfl
  | gateOn =>
    rcases exec_gateOn_cases h with ⟨hgate, rfl⟩ | ⟨hgate, hpend, rfl⟩ | ⟨hgate, hpend, rfl⟩
    · simp [services, hgate]
    · simp [services, hpend]
    · simp [services, hgate, hpend]
  | tick =>
    rcases exec_tick_cases h with ⟨hgate, rfl⟩ | ⟨hgate, -, -, rfl⟩ | ⟨hgate, -, rfl⟩ <;> simp [services, hgate]
  | reset => rw [exec_reset_cases h]; rfl

/-- Settles O53: `DUTY` is outside the frame of every operation but `STORE` and `RESET`. -/
theorem dutyHasTwoWriters : Obligations.DutyHasTwoWriters := by
  intro i s t h hne
  cases i with
  | store ch v => exact .inr ⟨ch, v, rfl⟩
  | reset => exact .inl rfl
  | load ch => exact absurd (congrArg State.duty (exec_load_frame h)) hne
  | gateOff => exact absurd (congrArg State.duty (exec_gateOff_frame h)) hne
  | gateOn => exact absurd (congrArg State.duty (exec_gateOn_frame h)) hne
  | tick => exact absurd (congrArg State.duty (exec_tick_frame h)) hne

end registerWriters

/-- Settles O14: a step takes its event from the trace. -/
theorem noEventNoChange : Obligations.NoEventNoChange := by
  intro s h
  simp only [step, nextEvent, h]

end Sys2Proof.Machine
end

section
/-! PROOFS. The statements of 20_memory.md: a trace kept as bytes (R53), the same store done twice (R56), and what a read sees
after any operations (R58). -/

namespace Sys2Proof.Machine

section lastStore

variable {s t : State}

/-- R120 at one channel: `STORE` writes the channel it names and no other. -/
theorem exec_store_duty_getElem {ch : Channel} {v : Byte} (h : exec (.store ch v) s = .next t) (c : Fin 12) :
    t.duty[c] = if ch.toNat = c.val then v else s.duty[c] := by
  rcases exec_store_cases h with ⟨hout, rfl⟩ | ⟨hc, ⟨-, rfl⟩ | ⟨-, -, rfl⟩ | ⟨-, -, rfl⟩⟩
  · have hne : ch.toNat ≠ c.val := by omega
    rw [if_neg hne, addRecord_duty]
  all_goals exact Vector.getElem_set hc c.isLt

/-- The rule of R58 takes a list of operations one operation at a time. -/
theorem lastStored_cons (p : Params) (c : Fin 12) (old : Byte) (i : Instr) (is : List Instr) :
    lastStored p c old (i :: is) = lastStored p c (lastStored p c old [i]) is := by
  cases i <;> rfl

/-- R58 for one operation: only `STORE` and `RESET` give a channel another value (R22). -/
theorem exec_duty_getElem {i : Instr} (h : exec i s = .next t) (c : Fin 12) :
    t.duty[c] = lastStored s.params c s.duty[c] [i] := by
  cases i with
  | store ch v => exact exec_store_duty_getElem h c
  | load ch => rw [exec_load_frame h]; rfl
  | gateOff => rw [exec_gateOff_frame h]; rfl
  | gateOn => rw [exec_gateOn_frame h]; rfl
  | tick => rw [exec_tick_frame h]; rfl
  | reset => rw [exec_reset_cases h]; rfl

/-- R58 for the duty file: after any operations, a channel holds the value of the last `STORE` to it or the reset value. -/
theorem execAll_duty_getElem {is : List Instr} (h : execAll is s = .next t) (c : Fin 12) :
    t.duty[c] = lastStored s.params c s.duty[c] is := by
  induction is generalizing s with
  | nil => rw [← Host.Outcome.next.inj h]; rfl
  | cons i is ih =>
    obtain ⟨m, hm⟩ := exec_next i s
    rw [execAll_cons hm] at h
    rw [lastStored_cons, ← exec_duty_getElem hm c, ← exec_keeps_params hm]
    exact ih h

/-- R101: a serviced tick, inside `TICK` or `GATE_ON`, leaves the levels of the duty file and the accumulator it found. -/
theorem exec_out_of_services {i : Instr} (hserv : services i s = true) (h : exec i s = .next t) :
    t.out = levels s.duty s.acc := by
  cases i with
  | tick =>
    have hgate : s.gate = true := hserv
    rcases exec_tick_cases h with ⟨-, rfl⟩ | ⟨hclosed, -⟩ | ⟨hclosed, -⟩
    · rfl
    all_goals simp [hgate] at hclosed
  | gateOn =>
    rcases exec_gateOn_cases h with ⟨hgate, -⟩ | ⟨-, hpend, -⟩ | ⟨-, -, rfl⟩
    · simp [services, hgate] at hserv
    · simp [services, hpend] at hserv
    · rfl
  | store ch v => simp [services] at hserv
  | load ch => simp [services] at hserv
  | gateOff => simp [services] at hserv
  | reset => simp [services] at hserv

/-- R121 at a channel 0 to 11: `LOAD` returns the byte the channel holds. -/
theorem exec_load_channel (c : Fin 12) (s : State) :
    exec (.load (BitVec.ofNat 4 c)) s = .next { s with rdata := some s.duty[c] } := by
  have hc : (BitVec.ofNat 4 c).toNat = c.val := (BitVec.toNat_ofNat ..).trans (Nat.mod_eq_of_lt (by omega))
  rw [exec_load_mapped _ _ (by omega)]
  simp only [hc]
  rfl

/-- Settles O21: `LOAD` returns and a serviced tick compares what the duty file holds, and that is what
`execAll_duty_getElem` says. -/
theorem readsSeeTheLastStore : Obligations.ReadsSeeTheLastStore := by
  intro is s t c h
  dsimp only
  rw [← execAll_duty_getElem h c]
  refine ⟨exec_load_channel c t, fun i u hserv hu => ?_⟩
  rw [exec_out_of_services hserv hu]
  exact levels_getElem t.duty t.acc c c.isLt

/-- R120: a `STORE` to a duty file that the same `STORE` has written changes no value in it. -/
theorem exec_store_duty_idem {ch : Channel} {v : Byte} {u : State} (ht : exec (.store ch v) s = .next t)
    (hu : exec (.store ch v) t = .next u) : u.duty = t.duty := by
  refine Vector.ext fun c hc => ?_
  have hfirst := exec_store_duty_getElem ht ⟨c, hc⟩
  have hsecond := exec_store_duty_getElem hu ⟨c, hc⟩
  by_cases hch : ch.toNat = c
  · exact (hsecond.trans (if_pos hch)).trans (hfirst.trans (if_pos hch)).symm
  · exact hsecond.trans (if_neg hch)

/-- Settles O22: of the fields in the frame of `STORE`, the second one finds `DUTY` as it leaves it. -/
theorem storeTwiceIsStoreOnce : Obligations.StoreTwiceIsStoreOnce := by
  intro ch v s t u ht hu
  have hframe := exec_store_frame hu
  rwa [exec_store_duty_idem ht hu] at hframe

end lastStore

section traceBytes

/-- R53: the two bytes of a word as numbers, the more significant one first. -/
theorem wordBytes_eq (w : Word) :
    wordBytes w = [BitVec.ofNat 8 (w.toNat / 256), BitVec.ofNat 8 (w.toNat % 256)] := by
  have hhigh : w.extractLsb' 8 8 = BitVec.ofNat 8 (w.toNat / 256) := by
    apply BitVec.eq_of_toNat_eq
    simp only [BitVec.extractLsb'_toNat, BitVec.toNat_ofNat, Nat.shiftRight_eq_div_pow]
  have hlow : w.extractLsb' 0 8 = BitVec.ofNat 8 (w.toNat % 256) := by
    apply BitVec.eq_of_toNat_eq
    simp only [BitVec.extractLsb'_toNat, BitVec.toNat_ofNat, Nat.shiftRight_zero, Nat.mod_mod]
  rw [wordBytes, hhigh, hlow]

/-- R53: a word's two bytes at the front of a trace read as that word. -/
theorem traceWords_wordBytes_append (w : Word) (bs : List Byte) :
    traceWords (wordBytes w ++ bs) = (traceWords bs).map (w :: ·) := by
  simp only [wordBytes, List.cons_append, List.nil_append, traceWords, wordBytes_append]

/-- R53: a trace kept as bytes reads back as its words. -/
theorem traceWords_traceBytes (ws : List Word) : traceWords (traceBytes ws) = some ws := by
  induction ws with
  | nil => rfl
  | cons w ws ih =>
    have hcons : traceBytes (w :: ws) = wordBytes w ++ traceBytes ws := rfl
    rw [hcons, traceWords_wordBytes_append, ih]
    rfl

/-- Settles O8: a trace of one word is that word's two bytes, and each pair of bytes reads back as its word. -/
theorem traceBytesReadBack : Obligations.TraceBytesReadBack :=
  ⟨wordBytes_eq, traceWords_traceBytes⟩

end traceBytes

end Sys2Proof.Machine
end

section
/-! PROOFS. The statements of 30_encoding.md: the decoder and the encoder (R72 to R81), the refusals (R75 to R77), the
channels 12 to 15 (R78) and the pseudo-operation `frame` (R82). -/

namespace Sys2Proof.Machine

section fields

/-! The three fields of R72: what each one reads of a word put together from fields, and of the word's number. -/

@[simp] theorem opField_append (op ch : BitVec 4) (v : Byte) : opField (op ++ ch ++ v) = op := by
  have hch := ch.isLt
  have hv := v.isLt
  apply BitVec.eq_of_toNat_eq
  rw [opField_toNat, fields_toNat]
  omega

@[simp] theorem chField_append (op ch : BitVec 4) (v : Byte) : chField (op ++ ch ++ v) = ch := by
  have hch := ch.isLt
  have hv := v.isLt
  apply BitVec.eq_of_toNat_eq
  rw [chField_toNat, fields_toNat]
  omega

@[simp] theorem vField_append (op ch : BitVec 4) (v : Byte) : vField (op ++ ch ++ v) = v := by
  have hv := v.isLt
  apply BitVec.eq_of_toNat_eq
  rw [vField_toNat, fields_toNat]
  omega

theorem chField_eq_ofNat (w : Word) : chField w = BitVec.ofNat 4 (w.toNat / 256 % 16) := by
  rw [← chField_toNat, BitVec.ofNat_toNat, BitVec.setWidth_eq]

theorem vField_eq_ofNat (w : Word) : vField w = BitVec.ofNat 8 (w.toNat % 256) := by
  rw [← vField_toNat, BitVec.ofNat_toNat, BitVec.setWidth_eq]

theorem vField_eq_zero_iff {w : Word} : vField w = 0 ↔ w.toNat % 256 = 0 := by
  rw [← vField_toNat, ← BitVec.toNat_inj]
  rfl

theorem operandBits_eq_zero_iff {w : Word} : operandBits w = 0 ↔ w.toNat % 4096 = 0 := by
  rw [← operandBits_toNat, ← BitVec.toNat_inj]
  rfl

end fields

section decoder

variable {w : Word} {i : Instr}

/-- The operations without operands and their `OP` values (R74). -/
def bareOps : List (Nat × Instr) := [(0x3, .gateOff), (0x4, .gateOn), (0x8, .tick), (0xF, .reset)]

/-- R74: below its `OP`, the word of an operation without operands is all 0. -/
theorem encode_bare_toNat {op : Nat} (h : (op, i) ∈ bareOps) : (encode i).toNat = op * 4096 := by
  simp only [bareOps, List.mem_cons, Prod.mk.injEq, List.not_mem_nil, or_false] at h
  rcases h with ⟨rfl, rfl⟩ | ⟨rfl, rfl⟩ | ⟨rfl, rfl⟩ | ⟨rfl, rfl⟩ <;> rfl

/-- Each of these `OP` values belongs to one operation without operands. -/
theorem exists_bareOp {op : Nat} (h : op ∈ [0x3, 0x4, 0x8, 0xF]) : ∃ i, (op, i) ∈ bareOps := by
  simp only [List.mem_cons, List.not_mem_nil, or_false] at h
  rcases h with rfl | rfl | rfl | rfl
  · exact ⟨.gateOff, by decide⟩
  · exact ⟨.gateOn, by decide⟩
  · exact ⟨.tick, by decide⟩
  · exact ⟨.reset, by decide⟩

/-- R80 at `OP` 0x1. -/
theorem decode_store_word (h : w.toNat / 4096 = 0x1) : decode w = .op (.store (chField w) (vField w)) := by
  simp only [decode, opField_toNat, h]

/-- R80 at `OP` 0x2: a `LOAD` has no value (R77). -/
theorem decode_load_word (h : w.toNat / 4096 = 0x2) :
    decode w = if w.toNat % 256 = 0 then .op (.load (chField w)) else .invalid .reservedField := by
  simp only [decode, opField_toNat, h, vField_eq_zero_iff]

/-- R80 at the `OP` of an operation without operands, which uses no other bit (R77). -/
theorem decode_bare_word (h : (w.toNat / 4096, i) ∈ bareOps) :
    decode w = if w.toNat % 4096 = 0 then .op i else .invalid .reservedField := by
  simp only [bareOps, List.mem_cons, Prod.mk.injEq, List.not_mem_nil, or_false] at h
  rcases h with ⟨hop, rfl⟩ | ⟨hop, rfl⟩ | ⟨hop, rfl⟩ | ⟨hop, rfl⟩ <;>
    simp only [decode, opField_toNat, hop, bare, operandBits_eq_zero_iff]

/-- R80 at a reserved `OP` (R76). -/
theorem decode_reserved_word (h : w.toNat / 4096 ∉ [0x1, 0x2, 0x3, 0x4, 0x8, 0xF]) :
    decode w = .invalid .reservedOpcode := by
  simp only [List.mem_cons, List.not_mem_nil, or_false, not_or] at h
  obtain ⟨h1, h2, h3, h4, h8, hF⟩ := h
  unfold decode
  rw [opField_toNat]
  split
  case h_1 hop => exact absurd hop h1
  case h_2 hop => exact absurd hop h2
  case h_3 hop => exact absurd hop h3
  case h_4 hop => exact absurd hop h4
  case h_5 hop => exact absurd hop h8
  case h_6 hop => exact absurd hop hF
  case h_7 => rfl

/-- Everything the decoder can answer (R76, R77, R80). -/
theorem decode_cases (w : Word) :
    (w.toNat / 4096 = 0x1 ∧ decode w = .op (.store (chField w) (vField w))) ∨
    (w.toNat / 4096 = 0x2 ∧ w.toNat % 256 = 0 ∧ decode w = .op (.load (chField w))) ∨
    (∃ i, (w.toNat / 4096, i) ∈ bareOps ∧ w.toNat % 4096 = 0 ∧ decode w = .op i) ∨
    (((w.toNat / 4096 = 0x2 ∧ w.toNat % 256 ≠ 0) ∨
      (w.toNat / 4096 ∈ [0x3, 0x4, 0x8, 0xF] ∧ w.toNat % 4096 ≠ 0)) ∧ decode w = .invalid .reservedField) ∨
    (w.toNat / 4096 ∉ [0x1, 0x2, 0x3, 0x4, 0x8, 0xF] ∧ decode w = .invalid .reservedOpcode) := by
  by_cases h1 : w.toNat / 4096 = 0x1
  · exact .inl ⟨h1, decode_store_word h1⟩
  by_cases h2 : w.toNat / 4096 = 0x2
  · by_cases hv : w.toNat % 256 = 0
    · exact .inr (.inl ⟨h2, hv, (decode_load_word h2).trans (if_pos hv)⟩)
    · exact .inr (.inr (.inr (.inl ⟨.inl ⟨h2, hv⟩, (decode_load_word h2).trans (if_neg hv)⟩)))
  by_cases hbare : w.toNat / 4096 ∈ [0x3, 0x4, 0x8, 0xF]
  · obtain ⟨i, hi⟩ := exists_bareOp hbare
    by_cases hb : w.toNat % 4096 = 0
    · exact .inr (.inr (.inl ⟨i, hi, hb, (decode_bare_word hi).trans (if_pos hb)⟩))
    · exact .inr (.inr (.inr (.inl ⟨.inr ⟨hbare, hb⟩, (decode_bare_word hi).trans (if_neg hb)⟩)))
  · have hreserved : w.toNat / 4096 ∉ [0x1, 0x2, 0x3, 0x4, 0x8, 0xF] := by
      rw [List.mem_cons, List.mem_cons]
      exact fun h => h.elim h1 fun h => h.elim h2 hbare
    exact .inr (.inr (.inr (.inr ⟨hreserved, decode_reserved_word hreserved⟩)))

end decoder

section roundTrip

/-- R74, R80: an operation without operands is what its word decodes to. -/
theorem decode_encode_bare {op : Nat} {i : Instr} (h : (op, i) ∈ bareOps) : decode (encode i) = .op i := by
  have hword : (encode i).toNat = op * 4096 := encode_bare_toNat h
  have hop : (encode i).toNat / 4096 = op := by omega
  rw [decode_bare_word (hop.symm ▸ h), if_pos (by omega)]

/-- R74, R80: `STORE` keeps its operands in `CH` and `V`. -/
theorem decode_encode_store (ch : Channel) (v : Byte) : decode (encode (.store ch v)) = .op (.store ch v) := by
  have hop : (encode (.store ch v)).toNat / 4096 = 0x1 := by
    rw [← opField_toNat, encode, opField_append]; rfl
  rw [decode_store_word hop, encode, chField_append, vField_append]

/-- R74, R80: `LOAD` keeps its operand in `CH`, and its `V` is 0. -/
theorem decode_encode_load (ch : Channel) : decode (encode (.load ch)) = .op (.load ch) := by
  have hop : (encode (.load ch)).toNat / 4096 = 0x2 := by
    rw [← opField_toNat, encode, opField_append]; rfl
  have hv : (encode (.load ch)).toNat % 256 = 0 := by
    rw [← vField_eq_zero_iff, encode, vField_append]; rfl
  rw [decode_load_word hop, if_pos hv, encode, chField_append]

/-- R80: decoding the word of an operation gives the operation back. -/
@[simp] theorem decode_encode (i : Instr) : decode (encode i) = .op i := by
  cases i with
  | store ch v => exact decode_encode_store ch v
  | load ch => exact decode_encode_load ch
  | gateOff => exact decode_encode_bare (op := 0x3) (by decide)
  | gateOn => exact decode_encode_bare (op := 0x4) (by decide)
  | tick => exact decode_encode_bare (op := 0x8) (by decide)
  | reset => exact decode_encode_bare (op := 0xF) (by decide)

/-- Settles O1: every operation is well formed, and `decode_encode` reads back each one's operands. -/
theorem decodeInvertsEncode : Obligations.DecodeInvertsEncode := fun i _ => decode_encode i

/-- R79, R80: in each case in which a word decodes, the bits its operation does not keep are 0 in the word. -/
theorem encode_of_decode {w : Word} {i : Instr} (h : decode w = .op i) : encode i = w := by
  apply BitVec.eq_of_toNat_eq
  rcases decode_cases w with ⟨hop, hw⟩ | ⟨hop, hv, hw⟩ | ⟨j, hj, hb, hw⟩ | ⟨-, hw⟩ | ⟨-, hw⟩
  · obtain rfl := Decoded.op.inj (hw.symm.trans h)
    rw [encode_store_toNat, chField_toNat, vField_toNat]
    omega
  · obtain rfl := Decoded.op.inj (hw.symm.trans h)
    rw [encode_load_toNat, chField_toNat]
    omega
  · obtain rfl := Decoded.op.inj (hw.symm.trans h)
    rw [encode_bare_toNat hj]
    omega
  · simp [hw] at h
  · simp [hw] at h

/-- Settles O2: the word of an operation is the only one that decodes to it. -/
theorem encodeInvertsDecode : Obligations.EncodeInvertsDecode := fun _ _ => encode_of_decode

end roundTrip

/-- Settles O4: the lemma of each `OP` value, with the fields written as numbers. -/
theorem decoderReadsTheThreeFields : Obligations.DecoderReadsTheThreeFields := by
  intro w
  dsimp only
  rw [← chField_eq_ofNat, ← vField_eq_ofNat]
  have hbare : ∀ {op : Nat} {i : Instr}, (op, i) ∈ bareOps → w.toNat / 4096 = op →
      decode w = if w.toNat % 4096 = 0 then .op i else .invalid .reservedField :=
    fun hi hop => decode_bare_word (hop ▸ hi)
  exact ⟨decode_store_word, decode_load_word, hbare (by decide), hbare (by decide), hbare (by decide),
    hbare (by decide), decode_reserved_word⟩

/-- Settles O3, by running the decoder on each word. -/
theorem vectorWordsDecode : Obligations.VectorWordsDecode := by
  unfold Obligations.VectorWordsDecode
  decide

section traceLines

/-- R81: a word put together by shifting and `|` is the word with these three fields. -/
theorem shiftedFields_toNat {op n v : Nat} (hop : op ≤ 15) (hn : n ≤ 15) (hv : v ≤ 255) :
    (BitVec.ofNat 16 (op * 4096) ||| (BitVec.ofNat 16 n <<< 8) ||| BitVec.ofNat 16 v).toNat =
      op * 4096 + n * 256 + v := by
  have hch : n * 256 ||| v = n * 256 + v := by
    rw [mul_comm]; exact (Nat.two_pow_add_eq_or_of_lt (i := 8) (by omega) n).symm
  have hword : op * 4096 ||| (n * 256 + v) = op * 4096 + (n * 256 + v) := by
    rw [mul_comm]; exact (Nat.two_pow_add_eq_or_of_lt (i := 12) (by omega) op).symm
  simp (disch := omega) only [BitVec.toNat_or, BitVec.toNat_shiftLeft, BitVec.toNat_ofNat, Nat.shiftLeft_eq,
    Nat.reducePow, Nat.mod_eq_of_lt]
  rw [Nat.or_assoc, hch, hword, Nat.add_assoc]

/-- R81: the word of a `store` line is the word of the operation it names. -/
theorem storeWord_eq_encode {n v : Nat} (hn : n ≤ 15) (hv : v ≤ 255) :
    storeWord n v = encode (.store (BitVec.ofNat 4 n) (BitVec.ofNat 8 v)) := by
  apply BitVec.eq_of_toNat_eq
  rw [encode_store_toNat, BitVec.toNat_ofNat, BitVec.toNat_ofNat]
  refine (shiftedFields_toNat (op := 1) (by omega) hn hv).trans ?_
  omega

/-- R81: the word of a `load` line is the word of the operation it names. -/
theorem loadWord_eq_encode {n : Nat} (hn : n ≤ 15) : loadWord n = encode (.load (BitVec.ofNat 4 n)) := by
  apply BitVec.eq_of_toNat_eq
  rw [encode_load_toNat, BitVec.toNat_ofNat]
  have hzero : loadWord n = loadWord n ||| BitVec.ofNat 16 0 := BitVec.or_zero.symm
  rw [hzero]
  refine (shiftedFields_toNat (op := 2) (by omega) hn (by omega)).trans ?_
  omega

/-- Settles O9: these words are the operations' encodings. -/
theorem traceLinesSpellTheirOperations : Obligations.TraceLinesSpellTheirOperations := by
  intro n v hn hv
  rw [storeWord_eq_encode hn hv, loadWord_eq_encode hn]
  exact ⟨decode_encode _, decode_encode _⟩

end traceLines

section refusals

variable {a : Agent} {w : Word}

/-- R182: where the interface answers a word with its record alone, a step at it also takes it off the trace, and the
record stands at the word's own position. -/
theorem operate_and_step_of_refused {r : Reason} (hw : ∀ s, operate a w s = .next (addRecord r w s)) (s : State) :
    operate a w s = .next { s with faults := s.faults ++ [⟨r, w, s.position⟩] } ∧
    ∀ rest, s.trace = .op a w :: rest → ∃ t, step s = .next t ∧
      t = { s with trace := rest, position := t.position, rdata := t.rdata,
                   faults := s.faults ++ [⟨r, w, t.position⟩] } :=
  ⟨hw s, fun _ h => ⟨_, (step_of_op h).trans (hw _), rfl⟩⟩

/-- R76: the words with a reserved `OP`, which are all the words the decoder rejects for their `OP`. -/
theorem decode_eq_reservedOpcode_iff :
    decode w = .invalid .reservedOpcode ↔
      w.toNat / 4096 ∈ [0x0, 0x5, 0x6, 0x7, 0x9, 0xA, 0xB, 0xC, 0xD, 0xE] := by
  have hlt := w.isLt
  have hpartition : w.toNat / 4096 ∈ [0x0, 0x5, 0x6, 0x7, 0x9, 0xA, 0xB, 0xC, 0xD, 0xE] ↔
      w.toNat / 4096 ∉ [0x1, 0x2, 0x3, 0x4, 0x8, 0xF] := by
    simp only [List.mem_cons, List.not_mem_nil, or_false]
    omega
  rw [hpartition]
  refine ⟨fun h => ?_, decode_reserved_word⟩
  rcases decode_cases w with ⟨-, hw⟩ | ⟨-, -, hw⟩ | ⟨_, -, -, hw⟩ | ⟨-, hw⟩ | ⟨hop, -⟩
  · simp [hw] at h
  · simp [hw] at h
  · simp [hw] at h
  · simp [hw] at h
  · exact hop

/-- Settles O5: a reserved `OP` is the decoder's `RESERVED_OPCODE`, and such a word is only recorded. -/
theorem reservedOpcodeIsRefused : Obligations.ReservedOpcodeIsRefused := by
  refine fun w => ⟨decode_eq_reservedOpcode_iff, fun a s hop => ?_⟩
  have hw : decode w = .invalid .reservedOpcode := decode_eq_reservedOpcode_iff.mpr hop
  exact operate_and_step_of_refused (fun s => operate_of_invalid hw s) s

/-- Settles O6: the decoder checks the fields an operation does not use, and such a word is only recorded. -/
theorem reservedFieldIsRefused : Obligations.ReservedFieldIsRefused := by
  intro w h
  have hw : decode w = .invalid .reservedField := by
    rcases h with ⟨hop, hv⟩ | ⟨hop, hb⟩
    · rw [decode_load_word hop, if_neg hv]
    · obtain ⟨i, hi⟩ := exists_bareOp hop
      rw [decode_bare_word hi, if_neg hb]
  exact ⟨hw, fun a s => operate_and_step_of_refused (fun s => operate_of_invalid hw s) s⟩

/-- Settles O7: an operation's word decodes to it whoever sends it, so from an agent that is not its issuer it is only
recorded. -/
theorem wrongAgentIsRefused : Obligations.WrongAgentIsRefused := by
  refine ⟨fun _ _ => rfl, fun _ => rfl, rfl, rfl, rfl, rfl, fun i a s ha => ?_⟩
  exact operate_and_step_of_refused (fun s => operate_of_wrongAgent (decode_encode i) ha.symm s) s

end refusals

section channelRange

variable {i : Instr}

/-- R78: an operation that addresses a channel 12 to 15 is the writer's. -/
theorem issuer_of_missesTheDutyFile (h : missesTheDutyFile i = true) : issuer i = .writer := by
  cases i with
  | store ch v => rfl
  | load ch => rfl
  | gateOff | gateOn | tick | reset => simp [missesTheDutyFile] at h

/-- R78, R181: an operation that addresses a channel 12 to 15 records that with its own word, and writes no channel. -/
theorem exec_of_missesTheDutyFile (h : missesTheDutyFile i = true) (s : State) :
    ∃ t, exec i s = .next t ∧ t.faults = s.faults ++ [⟨.illegalChannel, encode i, s.position⟩] ∧ t.duty = s.duty := by
  cases i with
  | store ch v => exact ⟨_, exec_store_unmapped ch v s (of_decide_eq_true h), rfl, rfl⟩
  | load ch => exact ⟨_, exec_load_unmapped ch s (of_decide_eq_true h), rfl, rfl⟩
  | gateOff | gateOn | tick | reset => simp [missesTheDutyFile] at h

/-- R78: the decoder does not check the channel of a `STORE` or `LOAD` word. -/
theorem decode_of_channel_out_of_range {w : Word} (hch : 12 ≤ w.toNat / 256 % 16)
    (hop : w.toNat / 4096 = 0x1 ∨ (w.toNat / 4096 = 0x2 ∧ w.toNat % 256 = 0)) :
    ∃ i, decode w = .op i ∧ missesTheDutyFile i = true := by
  rw [← chField_toNat] at hch
  rcases hop with hop | ⟨hop, hv⟩
  · exact ⟨_, decode_store_word hop, decide_eq_true hch⟩
  · exact ⟨_, (decode_load_word hop).trans (if_pos hv), decide_eq_true hch⟩

/-- Settles O18: the word decodes to an operation of its issuer, which records the operation's word, and that is `w`. -/
theorem channelOutOfRangeFaults : Obligations.ChannelOutOfRangeFaults := by
  intro w s hch hop
  obtain ⟨i, hw, hi⟩ := decode_of_channel_out_of_range hch hop
  obtain ⟨t, ht, hfaults, hduty⟩ := exec_of_missesTheDutyFile hi s
  rw [encode_of_decode hw] at hfaults
  exact ⟨i, t, hw, (operate_of_issuer hw (issuer_of_missesTheDutyFile hi) s).trans ht, hfaults, hduty⟩

end channelRange

section frame

variable {s t : State}

/-- Runs of operations chain. -/
theorem execAll_append {is : List Instr} (h : execAll is s = .next t) (js : List Instr) :
    execAll (is ++ js) s = execAll js t := by
  induction is generalizing s with
  | nil => rw [← Host.Outcome.next.inj h]; rfl
  | cons i is ih =>
    obtain ⟨m, hm⟩ := exec_next i s
    rw [execAll_cons hm] at h
    rw [List.cons_append, execAll_cons hm, ih h]

theorem execAll_singleton (i : Instr) (s : State) : execAll [i] s = exec i s := by
  obtain ⟨t, ht⟩ := exec_next i s
  rw [execAll_cons ht, ht, execAll_nil]

/-- R120: a `STORE` in a window that counts fewer than 12 stores so far. -/
theorem exec_store_in_window {ch : Channel} (v : Byte) (hch : ch.toNat < 12) (hgate : s.gate = false)
    (hwin : s.winStores < 12) :
    exec (.store ch v) s =
      .next { s with duty := s.duty.set ch.toNat v, winStores := s.winStores + 1 } := by
  obtain ⟨t, ht⟩ := exec_next (.store ch v) s
  rcases exec_store_cases ht with ⟨hout, -⟩ | ⟨_, ⟨hopen, -⟩ | ⟨-, -, rfl⟩ | ⟨-, hfull, -⟩⟩
  · omega
  · simp [hgate] at hopen
  · exact ht
  · omega

/-- The first `k` stores of a `frame` (R82, R161). -/
def frameStores (u : Frame) (k : Nat) : List Instr :=
  (List.range k).map fun c => .store (BitVec.ofNat 4 c) (u.toList.getD c 0)

/-- R82: a `frame` is its 12 stores between a `GATE_OFF` and a `GATE_ON`. -/
theorem frameOps_eq (u : Frame) : frameOps u = .gateOff :: frameStores u 12 ++ [.gateOn] := rfl

theorem frameStores_succ (u : Frame) (k : Nat) (h : k < 12) :
    frameStores u (k + 1) = frameStores u k ++ [.store (BitVec.ofNat 4 k) u[k]] := by
  simp [frameStores, List.range_succ, h]

/-- R82: the operations of a `frame` between its gate operations, in channel order. -/
theorem frameOps_getElem?_succ (u : Frame) (k : Nat) (h : k < 12) :
    (frameOps u)[k + 1]? = some (.store (BitVec.ofNat 4 k) u[k]) := by
  rw [frameOps_eq, List.cons_append, List.getElem?_cons_succ, List.getElem?_append_left (by simp [frameStores, h])]
  simp [frameStores, h]

/-- R161: in a window just opened the first `k` stores of a `frame` write channels 0 to `k - 1`, are counted, and change
nothing else. -/
theorem execAll_frameStores (u : Frame) (s : State) {k : Nat} (hk : k ≤ 12) :
    ∃ d : Frame, execAll (frameStores u k) (closeGate s) = .next { closeGate s with duty := d, winStores := k } ∧
      ∀ c : Fin 12, c.val < k → d[c] = u[c] := by
  induction k with
  | zero => exact ⟨s.duty, rfl, fun c hc => absurd hc (Nat.not_lt_zero _)⟩
  | succ k ih =>
    obtain ⟨d, hd, hwritten⟩ := ih (by omega)
    have hch : (BitVec.ofNat 4 k).toNat = k := (BitVec.toNat_ofNat ..).trans (Nat.mod_eq_of_lt (by omega))
    have hstore := exec_store_in_window (s := { closeGate s with duty := d, winStores := k }) u[k]
      (hch.symm ▸ hk) rfl hk
    simp only [hch] at hstore
    refine ⟨d.set k u[k], ?_, fun c hc => ?_⟩
    · rw [frameStores_succ u k hk, execAll_append hd, execAll_singleton, hstore]
    · by_cases hck : k = c.val
      · simp [hck]
      · exact (Vector.getElem_set_ne hk c.isLt hck).trans (hwritten c (by omega))

/-- R141: `GATE_ON` ends a window, after which the gate is open and no store is counted. -/
theorem exec_gateOn_ends_window (hgate : s.gate = false) (h : exec .gateOn s = .next t) :
    t.gate = true ∧ t.winStores = 0 := by
  rcases exec_gateOn_cases h with ⟨hopen, -⟩ | ⟨-, -, rfl⟩ | ⟨-, -, rfl⟩
  · simp [hgate] at hopen
  · exact ⟨rfl, rfl⟩
  · exact ⟨rfl, rfl⟩

/-- R161: a `frame` run with the gate open is its 12 stores in a window just opened, then the `GATE_ON` that ends it. -/
theorem execAll_frameOps (u : Frame) (hgate : s.gate = true) :
    execAll (frameOps u) s = exec .gateOn { closeGate s with duty := u, winStores := 12 } := by
  have hclose : exec .gateOff s = .next (closeGate s) := by rw [exec_gateOff, if_pos hgate]
  obtain ⟨d, hd, hwritten⟩ := execAll_frameStores u s le_rfl
  have hdu : d = u := Vector.ext fun c hc => hwritten ⟨c, hc⟩ hc
  rw [hdu] at hd
  rw [frameOps_eq, List.cons_append, execAll_cons hclose, execAll_append hd, execAll_singleton]

/-- Settles O55: the stores leave the duty file `u`, and the `GATE_ON` after them opens the gate and keeps it, also where it
services a deferred tick. -/
theorem frameUpdatesEveryChannel : Obligations.FrameUpdatesEveryChannel := by
  intro u s hgate
  refine ⟨rfl, rfl, rfl, frameOps_getElem?_succ u, ?_⟩
  obtain ⟨t, ht⟩ := exec_next .gateOn { closeGate s with duty := u, winStores := 12 }
  obtain ⟨hopen, hnone⟩ := exec_gateOn_ends_window rfl ht
  have hframe := exec_gateOn_frame ht
  have hfaults : t.faults = s.faults := by rw [hframe]; rfl
  have hlost : t.lost = s.lost := by rw [hframe]; rfl
  exact ⟨t, (execAll_frameOps u hgate).trans ht, by rw [hframe], hopen, hnone, hfaults, hlost⟩

end frame

end Sys2Proof.Machine
end

section
/-! PROOFS. The statements of 40_pwm_tick.md: `TICK` and the service (R100 to R103, R108), what `OUT` follows (R104, R105), and
the levels of a channel over a PWM period (R106, R107, R109). -/

namespace Sys2Proof.Machine

section tick

/-- Settles O32: the four cases are the branches of `TICK`'s rule. -/
theorem tickFollowsItsRule : Obligations.TickFollowsItsRule := by
  intro s
  rw [exec_tick]
  refine ⟨fun hgate => ?_, fun hgate hdefer hpend => ?_, fun hgate hdefer hpend => ?_, fun hgate hdrop => ?_⟩
  · rw [if_pos hgate]; rfl
  · rw [if_neg (by simp [hgate]), if_pos ⟨hdefer, hpend⟩]; rfl
  · rw [if_neg (by simp [hgate]), if_neg (by simp [hpend])]; rfl
  · rw [if_neg (by simp [hgate]), if_neg (by simp [hdrop])]; rfl

/-- Settles O33: each level is its comparator's answer, and the modular step is that of 8-bit addition. -/
theorem serviceComparesThenSteps : Obligations.ServiceComparesThenSteps := by
  intro s
  refine ⟨fun c => ?_, ?_, rfl⟩
  · rw [serviceTick_out]
    exact (Bool.eq_iff_iff.mp (levels_getElem s.duty s.acc c c.isLt)).trans (comparator_iff _ _)
  · rw [serviceTick_acc]
    exact BitVec.toNat_add _ _

/-- Settles O39: `FAULTS` is outside the frame of `TICK`. -/
theorem tickNeverFaults : Obligations.TickNeverFaults := by
  intro s
  obtain ⟨t, ht⟩ := exec_next .tick s
  exact ⟨serviceTick_faults s, t, ht, by rw [exec_tick_frame ht]⟩

/-- Settles O35: `OUT` is outside the frame of `STORE`, `LOAD` and `GATE_OFF`; `GATE_ON` and `TICK` write it only in the outcome
that services a tick. -/
theorem outputsHoldBetweenServices : Obligations.OutputsHoldBetweenServices := by
  intro i s t h hserv hreset
  cases i with
  | store ch v => rw [exec_store_frame h]
  | load ch => rw [exec_load_frame h]
  | gateOff => rw [exec_gateOff_frame h]
  | gateOn =>
    rcases exec_gateOn_cases h with ⟨-, rfl⟩ | ⟨-, -, rfl⟩ | ⟨hgate, hpend, -⟩
    · rfl
    · rfl
    · simp [services, hgate, hpend] at hserv
  | tick =>
    rcases exec_tick_cases h with ⟨hgate, -⟩ | ⟨-, -, -, rfl⟩ | ⟨-, -, rfl⟩
    · simp [services, hgate] at hserv
    · rfl
    · rfl
  | reset => exact absurd rfl hreset

end tick

section log

variable {i : Instr} {is : List Instr} {s t : State} {r : Service} {k : Nat}

/-- R101: an operation that services a tick puts one service in front of the log of what follows it. -/
theorem serviceLog_cons_of_services (h : exec i s = .next t) (hserv : services i s = true) :
    serviceLog (i :: is) s = ⟨s.acc, s.duty, levels s.duty s.acc⟩ :: serviceLog is t := by
  rw [serviceLog_cons h, if_pos hserv, exec_out_of_services hserv h, List.singleton_append]

/-- An operation that services no tick leaves no service in the log. -/
theorem serviceLog_cons_of_not_services (h : exec i s = .next t) (hserv : services i s = false) :
    serviceLog (i :: is) s = serviceLog is t := by
  rw [serviceLog_cons h, hserv]
  rfl

/-- R101, R104: every service leaves the 12 comparisons of the duty file and the one accumulator it read. -/
theorem serviceLog_out (hr : r ∈ serviceLog is s) : r.out = levels r.duty r.acc := by
  induction is generalizing s with
  | nil => simp at hr
  | cons i is ih =>
    obtain ⟨t, ht⟩ := exec_next i s
    cases hserv : services i s with
    | false =>
      rw [serviceLog_cons_of_not_services ht hserv] at hr
      exact ih hr
    | true =>
      rw [serviceLog_cons_of_services ht hserv, List.mem_cons] at hr
      rcases hr with rfl | hr
      · rfl
      · exact ih hr

/-- R102: the level a service leaves on a channel is the answer of that channel's comparator. -/
theorem serviceLog_out_getElem (hr : r ∈ serviceLog is s) (c : Fin 12) : r.out[c] = comparator r.duty[c] r.acc := by
  rw [serviceLog_out hr]
  exact levels_getElem r.duty r.acc c c.isLt

/-- R7, R103: one more service is one more step of the 8-bit addition. -/
theorem add_ofNat_succ (a : Byte) (k : Nat) : a + BitVec.ofNat 8 (k + 1) = a + BitVec.ofNat 8 k + 1 := by
  rw [BitVec.ofNat_add, ← add_assoc]
  rfl

/-- R24, R103: while no `RESET` comes, the services read `ACC` as the run found it, then each one more, modulo 256. -/
theorem serviceLog_acc (hreset : Instr.reset ∉ is) (hr : (serviceLog is s)[k]? = some r) :
    r.acc = s.acc + BitVec.ofNat 8 k := by
  induction is generalizing s k with
  | nil => simp at hr
  | cons i is ih =>
    have his : Instr.reset ∉ is := List.not_mem_of_not_mem_cons hreset
    obtain ⟨t, ht⟩ := exec_next i s
    have hacc := accStepsOnlyOnServices i s t ht
    rw [if_neg (List.ne_of_not_mem_cons hreset).symm] at hacc
    cases hserv : services i s with
    | false =>
      rw [serviceLog_cons_of_not_services ht hserv] at hr
      rw [ih his hr, hacc, hserv]
      rfl
    | true =>
      rw [serviceLog_cons_of_services ht hserv] at hr
      cases k with
      | zero =>
        obtain rfl := Option.some.inj hr
        exact (BitVec.add_zero _).symm
      | succ k =>
        rw [ih his hr, hacc, if_pos hserv, add_ofNat_succ, add_right_comm]

/-- Settles O34: a service compares the whole duty file with its one accumulator. -/
theorem equalDutiesGiveEqualLevels : Obligations.EqualDutiesGiveEqualLevels := by
  intro is s r hr
  refine ⟨serviceLog_out_getElem hr, fun c c' hduty => ?_⟩
  rw [serviceLog_out_getElem hr c, serviceLog_out_getElem hr c', hduty]

end log

section edges

variable (d a : Byte)

/-- R107: a comparator that drove low drives high one step later exactly where the step wraps to 0. -/
theorem comparator_rises_iff (hd : d ≠ 0) :
    (comparator d a = false ∧ comparator d (a + 1) = true) ↔ a + 1 = 0 := by
  rw [← Bool.not_eq_true, comparator_iff, comparator_iff]
  bv_omega

/-- R107: a comparator that drove high drives low one step later exactly where the step reaches the duty value. -/
theorem comparator_falls_iff (hd : d ≠ 0) :
    (comparator d a = true ∧ comparator d (a + 1) = false) ↔ a + 1 = d := by
  rw [← Bool.not_eq_true, comparator_iff, comparator_iff]
  bv_omega

/-- R102: no accumulator is below a duty value of 0. -/
theorem comparator_zero : comparator 0 a = false := by
  rw [← Bool.not_eq_true, comparator_iff]
  exact Nat.not_lt_zero _

end edges

/-- Settles O38: two consecutive services compare `d` with an accumulator value and with the next one. -/
theorem edgesOfAConstantDuty : Obligations.EdgesOfAConstantDuty := by
  intro is s c d hreset hduty k r r' hr hr'
  have hmem := List.mem_of_getElem? hr
  have hmem' := List.mem_of_getElem? hr'
  have hacc : r'.acc = r.acc + 1 := by
    rw [serviceLog_acc hreset hr', serviceLog_acc hreset hr, add_ofNat_succ]
  rw [serviceLog_out_getElem hmem, serviceLog_out_getElem hmem', hduty r hmem, hduty r' hmem', hacc]
  refine ⟨fun hd => ⟨comparator_rises_iff d r.acc hd, comparator_falls_iff d r.acc hd⟩, ?_⟩
  rintro rfl
  exact ⟨comparator_zero _, comparator_zero _⟩

section period

variable {is : List Instr} {s : State} {r : Service} {c : Fin 12} {k : Nat}

/-- R106: over a period the services read `ACC` = 0, 1, ..., 255. -/
theorem period_acc_toNat (hreset : Instr.reset ∉ is) (hperiod : IsPeriod (serviceLog is s))
    (hr : (serviceLog is s)[k]? = some r) : r.acc.toNat = k := by
  obtain ⟨hlength, hhead⟩ := hperiod
  obtain ⟨hk, -⟩ := List.getElem?_eq_some_iff.mp hr
  obtain ⟨first, hfirst, hzero⟩ := Option.map_eq_some_iff.mp hhead
  have hstart : s.acc = 0 := by
    rw [← hzero, serviceLog_acc hreset (List.head?_eq_getElem? ▸ hfirst)]
    exact (BitVec.add_zero _).symm
  rw [serviceLog_acc hreset hr, hstart, zero_add, BitVec.toNat_ofNat]
  omega

/-- R106, R109: service `k` of a period leaves a channel high exactly where `k` is below the duty value it read. -/
theorem period_out_iff (hreset : Instr.reset ∉ is) (hperiod : IsPeriod (serviceLog is s))
    (hr : (serviceLog is s)[k]? = some r) : r.out[c] = true ↔ k < r.duty[c].toNat := by
  rw [serviceLog_out_getElem (List.mem_of_getElem? hr), comparator_iff, period_acc_toNat hreset hperiod hr]

/-- The high services of a log are the numbers below its length at which the level is high. -/
theorem highCount_eq_count {high : Nat → Prop} [DecidablePred high] {log : List Service}
    (h : ∀ (j : Nat) (r : Service), log[j]? = some r → (r.out[c] = true ↔ high j)) :
    highCount c log = Nat.count high log.length := by
  induction log using List.reverseRecOn with
  | nil => rfl
  | append_singleton log r ih =>
    have hlast := h log.length r List.getElem?_concat_length
    have hbefore := ih fun j x hx =>
      h j x ((List.getElem?_append_left (List.getElem?_eq_some_iff.mp hx).1).trans hx)
    rw [List.length_append, List.length_singleton, Nat.count_succ, ← hbefore]
    simp only [highCount, List.countP_append, List.countP_singleton, hlast]

/-- How many of the first `n` numbers are below a bound that changes from `a` to `b` at `k`. -/
theorem count_below_changing_bound (a b k n : Nat) :
    Nat.count (fun j => j < if j < k then a else b) n = min a (min k n) + (min b n - k) := by
  induction n with
  | zero => simp
  | succ n ih =>
    rw [Nat.count_succ, ih]
    split_ifs <;> omega

end period

/-- Settles O40: the high services of the period are the numbers below a bound that changes from `d1` to `d2` at `k`. -/
theorem dutyChangeInMidPeriod : Obligations.DutyChangeInMidPeriod := by
  intro is s c d1 d2 k hreset hperiod hk hduty
  have hhigh : ∀ (j : Nat) (r : Service), (serviceLog is s)[j]? = some r →
      (r.out[c] = true ↔ j < if j < k then d1.toNat else d2.toNat) := fun j r hr => by
    rw [period_out_iff hreset hperiod hr, hduty j r hr, apply_ite BitVec.toNat]
  have hd2 : d2.toNat < 256 := d2.isLt
  rw [highCount_eq_count hhigh, hperiod.1, count_below_changing_bound]
  omega

/-- Settles O37: a constant duty is one that changes to itself after the period's last service. -/
theorem dutyRatioOverAPeriod : Obligations.DutyRatioOverAPeriod := by
  intro is s c d hreset hperiod hduty
  have hd : d.toNat < 256 := d.isLt
  have hcount := dutyChangeInMidPeriod is s c d d 256 hreset hperiod le_rfl fun j r hr => by
    rw [ite_self]
    exact hduty r (List.mem_of_getElem? hr)
  refine ⟨by omega, fun k r hr => ⟨period_acc_toNat hreset hperiod hr, ?_⟩⟩
  rw [period_out_iff hreset hperiod hr, hduty r (List.mem_of_getElem? hr)]

end Sys2Proof.Machine
end

section
/-! PROOFS. The statements of 41_duty_access.md: what `STORE` and `LOAD` do and leave unchanged (R120, R121), and an update
without the gate (R123). -/

namespace Sys2Proof.Machine

section store

variable {s : State} {ch : Channel}

/-- R120: a `STORE` with the gate open writes its channel and counts nothing. -/
theorem exec_store_of_gate_open (v : Byte) (hch : ch.toNat < 12) (hgate : s.gate = true) :
    exec (.store ch v) s = .next { s with duty := s.duty.set ch.toNat v } := by
  rw [exec_store_mapped ch v s hch, countInWindow, if_pos hgate]

/-- R120, R221: a `STORE` in a window that counts 12 stores or more so far is done, and recorded. -/
theorem exec_store_of_window_full (v : Byte) (hch : ch.toNat < 12) (hgate : s.gate = false) (hwin : 12 ≤ s.winStores) :
    exec (.store ch v) s =
      .next (addRecord .windowOverrun (encode (.store ch v))
        { s with duty := s.duty.set ch.toNat v, winStores := 13 }) := by
  obtain ⟨t, ht⟩ := exec_next (.store ch v) s
  rcases exec_store_cases ht with ⟨hout, -⟩ | ⟨_, ⟨hopen, -⟩ | ⟨-, hfew, -⟩ | ⟨-, -, rfl⟩⟩
  · omega
  · simp [hgate] at hopen
  · omega
  · exact ht

/-- Settles O15: off the duty file a record, on it one case per state of the window. -/
theorem storeFollowsItsRule : Obligations.StoreFollowsItsRule := fun ch v s =>
  ⟨exec_store_unmapped ch v s, fun hch =>
    ⟨exec_store_of_gate_open v hch, exec_store_in_window v hch, exec_store_of_window_full v hch⟩⟩

/-- Settles O16: with the gate open or fewer than 12 stores counted, the outcome is the write, and at most the count. -/
theorem storeCompletes : Obligations.StoreCompletes := by
  intro ch v s hmapped hroom
  rw [channelAddr_eq] at hmapped ⊢
  have hread (t : State) (hduty : t.duty = s.duty.set ch.toNat v) : memRead t ch.toNat = some v := by
    rw [memRead_mapped t _ hmapped]
    simp [hduty]
  cases hgate : s.gate with
  | true => exact ⟨_, exec_store_of_gate_open v hmapped hgate, hread _ rfl, rfl⟩
  | false =>
    have hwin : s.winStores < 12 := hroom.resolve_left (by simp [hgate])
    exact ⟨_, exec_store_in_window v hmapped hgate hwin, hread _ rfl, rfl⟩

/-- R120, R56: `STORE` leaves the memory as a write of its byte leaves it; at an unmapped address that is as it was. -/
theorem exec_store_memRead {v : Byte} {t : State} (h : exec (.store ch v) s = .next t) (a : Nat) :
    memRead t a = memRead (memWrite s (channelAddr ch) v) a := by
  rw [channelAddr_eq]
  rcases exec_store_cases h with ⟨hout, rfl⟩ | ⟨hch, hcases⟩
  · rw [memWrite_unmapped s _ v hout]
    exact memRead_congr rfl a
  · rw [memWrite_mapped s _ v hch]
    rcases hcases with ⟨-, rfl⟩ | ⟨-, -, rfl⟩ | ⟨-, -, rfl⟩ <;> exact memRead_congr rfl a

/-- R120: a `STORE` with the gate open is not counted. -/
theorem exec_store_winStores_of_gate_open {v : Byte} {t : State} (h : exec (.store ch v) s = .next t)
    (hgate : s.gate = true) : t.winStores = s.winStores := by
  rcases exec_store_cases h with ⟨-, rfl⟩ | ⟨-, ⟨-, rfl⟩ | ⟨hclosed, -⟩ | ⟨hclosed, -⟩⟩
  · rfl
  · rfl
  all_goals simp [hgate] at hclosed

/-- Settles O19: the bytes are those of one memory write, and the rest is the frame of `STORE`. -/
theorem storeFrame : Obligations.StoreFrame := by
  intro ch v s t h
  refine ⟨fun a ha => ?_, fun hout a => ?_, exec_store_winStores_of_gate_open h, exec_store_frame h⟩
  · rw [exec_store_memRead h, memRead_memWrite, if_neg (fun hhit => ha hhit.1)]
  · rw [exec_store_memRead h, memWrite_unmapped s _ v hout]

end store

section load

/-- Settles O17: one case per side of the duty file's end. -/
theorem loadFollowsItsRule : Obligations.LoadFollowsItsRule := fun ch s =>
  ⟨exec_load_mapped ch s, exec_load_unmapped ch s⟩

/-- Settles O20: `DUTY` is outside the frame of `LOAD`, and only a channel off the duty file is recorded. -/
theorem loadFrame : Obligations.LoadFrame := by
  intro ch s t h
  have hframe := exec_load_frame h
  refine ⟨memRead_congr (by rw [hframe]), fun hmapped => ?_, hframe⟩
  rw [channelAddr_eq] at hmapped
  rcases exec_load_cases h with ⟨-, rfl⟩ | ⟨hout, -⟩
  · rfl
  · omega

end load

section ungated

variable {s : State} {c d : Channel}

/-- R123: with the gate open, a tick between two stores of one update is serviced on the duty file that holds the first store
and not the second, and no record is added. -/
theorem tick_between_ungated_stores (x y : Byte) (hgate : s.gate = true) (hc : c.toNat < 12) (hd : d.toNat < 12) :
    ∃ t, execAll [.store c x, .tick, .store d y] s = .next t ∧
      serviceLog [.store c x, .tick, .store d y] s = [⟨s.acc, s.duty.set c.toNat x, t.out⟩] ∧
      t.duty = (s.duty.set c.toNat x).set d.toNat y ∧ t.out = levels (s.duty.set c.toNat x) s.acc ∧
      t.faults = s.faults := by
  have hfirst := exec_store_of_gate_open x hc hgate
  have htick := exec_tick { s with duty := s.duty.set c.toNat x }
  rw [if_pos hgate] at htick
  have hsecond := exec_store_of_gate_open (s := serviceTick { s with duty := s.duty.set c.toNat x }) y hd hgate
  refine ⟨_, ((execAll_cons hfirst _).trans (execAll_cons htick _)).trans (execAll_cons hsecond []), ?_, rfl, rfl, rfl⟩
  rw [serviceLog_cons hfirst, serviceLog_cons htick, serviceLog_cons hsecond]
  simp [services, hgate]

/-- Settles O42: from the reset state the torn update of `tick_between_ungated_stores` leaves channel 0 high and channel 1
low. -/
theorem ungatedUpdateCanTear : Obligations.UngatedUpdateCanTear := by
  obtain ⟨t, hrun, hlog, hduty, hout, hfaults⟩ :=
    tick_between_ungated_stores (s := State.reset) (c := 0) (d := 1) 0xFF 0xFF rfl (by decide) (by decide)
  refine ⟨t, hrun, hlog, hduty, ?_, ?_, hfaults⟩
  · rw [hout]; decide
  · rw [hout]; decide

end ungated

end Sys2Proof.Machine
end

section
/-! PROOFS. The statements of 42_control.md: the gate operations (R140, R141), what a gated update shows to the serviced ticks
(R142), the accounting of tick arrivals (R143), and the documented writer's updates (R142, R161). -/

namespace Sys2Proof.Machine

section runs

variable {i : Instr} {is : List Instr} {s t : State}

/-- R22: an operation that is no `STORE` and no `RESET` keeps the duty file. -/
theorem exec_keeps_duty (hstore : ∀ ch v, i ≠ .store ch v) (hreset : i ≠ .reset) (h : exec i s = .next t) :
    t.duty = s.duty := by
  by_contra hne
  rcases dutyHasTwoWriters i s t h hne with rfl | ⟨ch, v, rfl⟩
  · exact hreset rfl
  · exact hstore ch v rfl

/-- What every operation of a list keeps, the run of the list keeps. -/
theorem execAll_keeps {P : State → Prop} (hstep : ∀ i ∈ is, ∀ x y, P x → exec i x = .next y → P y) (hs : P s)
    (h : execAll is s = .next t) : P t := by
  induction is generalizing s with
  | nil => exact Host.Outcome.next.inj h ▸ hs
  | cons i is ih =>
    obtain ⟨m, hm⟩ := exec_next i s
    rw [execAll_cons hm] at h
    exact ih (fun j hj => hstep j (List.mem_cons_of_mem i hj)) (hstep i List.mem_cons_self s m hs hm) h

/-- R6: no run of operations assigns a parameter. -/
theorem execAll_keeps_params (h : execAll is s = .next t) : t.params = s.params :=
  execAll_keeps (P := fun x => x.params = s.params) (fun _ _ _ _ hx hy => (exec_keeps_params hy).trans hx) rfl h

/-- R33: every run of operations keeps the invariants. -/
theorem execAll_keeps_inv (hs : s.Inv) (h : execAll is s = .next t) : t.Inv :=
  execAll_keeps (fun _ _ _ _ => exec_keeps_inv) hs h

/-- The serviced ticks of a run are those of its first part, then those of the rest. -/
theorem serviceLog_append (h : execAll is s = .next t) (js : List Instr) :
    serviceLog (is ++ js) s = serviceLog is s ++ serviceLog js t := by
  induction is generalizing s with
  | nil => rw [← Host.Outcome.next.inj h]; rfl
  | cons i is ih =>
    obtain ⟨m, hm⟩ := exec_next i s
    rw [execAll_cons hm] at h
    rw [List.cons_append, serviceLog_cons hm, serviceLog_cons hm, ih h, List.append_assoc]

/-- The two ways a tick is serviced: a `TICK` with the gate open (R100), and a `GATE_ON` that ends a window in which one was
deferred (R141). -/
theorem services_cases (h : services i s = true) :
    (i = .tick ∧ s.gate = true) ∨ (i = .gateOn ∧ s.gate = false ∧ s.pend = true) := by
  cases i with
  | tick => exact .inl ⟨rfl, h⟩
  | gateOn => exact .inr ⟨rfl, by simpa [services] using h⟩
  | store ch v | load ch | gateOff | reset => simp [services] at h

/-- R141: with the gate closed `GATE_ON` services a tick exactly where one was deferred. -/
theorem services_gateOn_of_gate_closed (hgate : s.gate = false) : services .gateOn s = s.pend := by
  simp [services, hgate]

end runs

section window

variable {i : Instr} {is : List Instr} {s t : State}

/-- R140: after a `GATE_OFF` the gate is closed, whether it was open before or not. -/
theorem exec_gateOff_closes (h : exec .gateOff s = .next t) : t.gate = false := by
  rcases exec_gateOff_cases h with ⟨-, rfl⟩ | ⟨hgate, rfl⟩
  · rfl
  · exact hgate

/-- R26: only `GATE_ON` and `RESET` open the gate. -/
theorem exec_keeps_gate_closed (hgate : s.gate = false) (hon : i ≠ .gateOn) (hreset : i ≠ .reset)
    (h : exec i s = .next t) : t.gate = false := by
  by_cases hoff : i = .gateOff
  · subst hoff
    exact exec_gateOff_closes h
  · by_contra hne
    rcases gate_writers h (fun heq => hne (heq.trans hgate)) with rfl | rfl | rfl
    · exact hoff rfl
    · exact hon rfl
    · exact hreset rfl

/-- R100: with the gate closed no operation but `GATE_ON` services a tick. -/
theorem not_services_of_gate_closed (hgate : s.gate = false) (hon : i ≠ .gateOn) : services i s = false := by
  rw [← Bool.not_eq_true]
  intro hserv
  rcases services_cases hserv with ⟨-, hopen⟩ | ⟨rfl, -⟩
  · simp [hgate] at hopen
  · exact hon rfl

/-- An operation of a gated window is neither of those that end it. -/
theorem staysGated.ne_of_mem (hstay : staysGated is) (hi : i ∈ is) : i ≠ .gateOn ∧ i ≠ .reset :=
  ⟨ne_of_mem_of_not_mem hi hstay.1, ne_of_mem_of_not_mem hi hstay.2⟩

/-- What follows the first operation of a gated window stays in it. -/
theorem staysGated.tail (hstay : staysGated (i :: is)) : staysGated is :=
  ⟨List.not_mem_of_not_mem_cons hstay.1, List.not_mem_of_not_mem_cons hstay.2⟩

/-- A window with its `GATE_OFF` holds neither of the operations that end it. -/
theorem staysGated.gateOff_cons (hstay : staysGated is) : staysGated (.gateOff :: is) :=
  ⟨List.not_mem_cons_of_ne_of_not_mem nofun hstay.1, List.not_mem_cons_of_ne_of_not_mem nofun hstay.2⟩

/-- R140: the gate stays closed throughout a window. -/
theorem execAll_keeps_gate_closed (hgate : s.gate = false) (hstay : staysGated is) (h : execAll is s = .next t) :
    t.gate = false :=
  execAll_keeps (P := fun x => x.gate = false) (fun _ hi _ _ hx =>
    have ⟨hon, hreset⟩ := hstay.ne_of_mem hi
    exec_keeps_gate_closed hx hon hreset) hgate h

/-- R140: no tick is serviced inside a window. -/
theorem serviceLog_of_staysGated (hgate : s.gate = false) (hstay : staysGated is) : serviceLog is s = [] := by
  induction is generalizing s with
  | nil => rfl
  | cons i is ih =>
    obtain ⟨m, hm⟩ := exec_next i s
    obtain ⟨hon, hreset⟩ := hstay.ne_of_mem List.mem_cons_self
    rw [serviceLog_cons_of_not_services hm (not_services_of_gate_closed hgate hon)]
    exact ih (exec_keeps_gate_closed hgate hon hreset hm) hstay.tail

/-- R140: from its `GATE_OFF` on a window services no tick, whatever state the `GATE_OFF` finds. -/
theorem serviceLog_gateOff_cons (hstay : staysGated is) : serviceLog (.gateOff :: is) s = [] := by
  obtain ⟨m, hm⟩ := exec_next .gateOff s
  rw [serviceLog_cons_of_not_services hm rfl, serviceLog_of_staysGated (exec_gateOff_closes hm) hstay]

/-- R140: a window leaves the gate closed, whatever state its `GATE_OFF` finds. -/
theorem execAll_gateOff_cons_closes (hstay : staysGated is) (h : execAll (.gateOff :: is) s = .next t) :
    t.gate = false := by
  obtain ⟨m, hm⟩ := exec_next .gateOff s
  rw [execAll_cons hm] at h
  exact execAll_keeps_gate_closed (exec_gateOff_closes hm) hstay h

end window

section rules

/-- Settles O25: the two cases are the branches of `GATE_OFF`'s rule, and what follows either is a window. -/
theorem gateOffFollowsItsRule : Obligations.GateOffFollowsItsRule := by
  intro s
  refine ⟨fun hgate => ?_, fun hgate => ?_, fun is t hstay h => ?_⟩
  · rw [exec_gateOff, if_pos hgate]; rfl
  · rw [exec_gateOff, if_neg (by simp [hgate])]
  · exact serviceLog_of_staysGated (exec_gateOff_closes h) hstay

/-- Settles O26: the three cases are the branches of `GATE_ON`'s rule, and under `DROP` R33 excludes the one that services. -/
theorem gateOnFollowsItsRule : Obligations.GateOnFollowsItsRule := by
  intro s
  rw [exec_gateOn]
  refine ⟨fun hgate => ?_, fun hgate hpend => ?_, fun hgate hpend => ?_, fun hs hdrop => ?_⟩
  · rw [if_pos hgate]
  · rw [if_neg (by simp [hgate]), if_neg (by simp [hpend])]; rfl
  · rw [if_neg (by simp [hgate]), if_pos hpend]; rfl
  · have hpend : s.pend = false := hs.dropNeverPends hdrop
    exact ⟨hpend, by simp [services, hpend]⟩

variable {s t : State}

/-- R100: the fields a serviced `TICK` may write. -/
theorem exec_tick_frame_of_gate_open (hgate : s.gate = true) (h : exec .tick s = .next t) :
    t = { s with out := t.out, acc := t.acc } := by
  rcases exec_tick_cases h with ⟨-, rfl⟩ | ⟨hclosed, -⟩ | ⟨hclosed, -⟩
  · rfl
  all_goals simp [hgate] at hclosed

/-- R100: the fields a `TICK` inside a window may write. -/
theorem exec_tick_frame_of_gate_closed (hgate : s.gate = false) (h : exec .tick s = .next t) :
    t = { s with pend := t.pend, lost := t.lost } := by
  rcases exec_tick_cases h with ⟨hopen, -⟩ | ⟨-, -, -, rfl⟩ | ⟨-, -, rfl⟩
  · simp [hgate] at hopen
  · rfl
  · rfl

/-- Settles O28: the frames of the three operations, none of which holds `DUTY`. -/
theorem gateAndTickFrames : Obligations.GateAndTickFrames := by
  intro i s t hi h
  have hduty : t.duty = s.duty := by
    rcases hi with rfl | rfl | rfl <;> exact exec_keeps_duty (by simp) (by simp) h
  refine ⟨memRead_congr hduty, ?_, ?_, ?_, ?_, ?_⟩
  · rintro rfl; exact exec_gateOff_frame h
  · rintro rfl; exact exec_gateOn_frame h
  · rintro rfl; exact exec_tick_frame h
  · rintro rfl hgate; exact exec_tick_frame_of_gate_open hgate h
  · rintro rfl hgate; exact exec_tick_frame_of_gate_closed hgate h

end rules

section allOrNothing

variable {i : Instr} {is : List Instr} {s t : State}

/-- R101: while no `STORE` and no `RESET` comes, every service reads the duty file as the run found it. -/
theorem serviceLog_duty (hstore : ∀ ch v, Instr.store ch v ∉ is) (hreset : Instr.reset ∉ is) {r : Service}
    (hr : r ∈ serviceLog is s) : r.duty = s.duty := by
  induction is generalizing s with
  | nil => simp at hr
  | cons i is ih =>
    obtain ⟨m, hm⟩ := exec_next i s
    have hduty : m.duty = s.duty :=
      exec_keeps_duty (fun ch v => (List.ne_of_not_mem_cons (hstore ch v)).symm)
        (List.ne_of_not_mem_cons hreset).symm hm
    have hrest (hmem : r ∈ serviceLog is m) : r.duty = s.duty :=
      (ih (fun ch v => List.not_mem_of_not_mem_cons (hstore ch v)) (List.not_mem_of_not_mem_cons hreset) hmem).trans
        hduty
    cases hserv : services i s with
    | false =>
      rw [serviceLog_cons_of_not_services hm hserv] at hr
      exact hrest hr
    | true =>
      rw [serviceLog_cons_of_services hm hserv, List.mem_cons] at hr
      rcases hr with rfl | hr
      · rfl
      · exact hrest hr

/-- Settles O29: the window services nothing, its `GATE_ON` services a deferred tick, and what comes before the first service
after it is no `STORE`. -/
theorem gatedUpdateIsAllOrNothing : Obligations.GatedUpdateIsAllOrNothing := by
  intro before window s₀ s t hbefore _ hstay hwindow
  have hgate : t.gate = false := execAll_gateOff_cons_closes hstay hwindow
  refine ⟨?_, serviceLog_gateOff_cons hstay, fun hpend after => ?_, fun after r hstore hreset hr => ?_, fun u hu => ?_⟩
  · rw [serviceLog_append hbefore, serviceLog_gateOff_cons hstay, List.append_nil]
  · obtain ⟨u, hu⟩ := exec_next .gateOn t
    rw [serviceLog_cons_of_services hu ((services_gateOn_of_gate_closed hgate).trans hpend)]
    rfl
  · refine serviceLog_duty (fun ch v => ?_) ?_ (List.mem_of_mem_head? hr)
    · exact List.not_mem_cons_of_ne_of_not_mem nofun (hstore ch v)
    · exact List.not_mem_cons_of_ne_of_not_mem nofun hreset
  · rw [exec_reset_cases hu]
    rfl

end allOrNothing

section accounting

variable {i : Instr} {is : List Instr} {s t : State}

theorem tickCount_cons (i : Instr) (is : List Instr) :
    tickCount (i :: is) = tickCount is + if i = .tick then 1 else 0 := by
  simp [tickCount, List.count_cons]

/-- R143 for one operation that is no `RESET`: an arrival is serviced, lost or latched, and a latched one is serviced
later. -/
theorem exec_accounts_for_ticks (hreset : i ≠ .reset) (h : exec i s = .next t) :
    (services i s).toNat + t.lost + t.pend.toNat = s.lost + s.pend.toNat + if i = .tick then 1 else 0 := by
  cases i with
  | store ch v => rw [exec_store_frame h]; simp [services]
  | load ch => rw [exec_load_frame h]; simp [services]
  | gateOff => rw [exec_gateOff_frame h]; simp [services]
  | gateOn =>
    rcases exec_gateOn_cases h with ⟨hgate, rfl⟩ | ⟨-, hpend, rfl⟩ | ⟨hgate, hpend, rfl⟩
    · simp [services, hgate]
    · simp [services, hpend]
    · simp [services, hgate, hpend, Nat.add_comm]
  | tick =>
    rcases exec_tick_cases h with ⟨hgate, rfl⟩ | ⟨hgate, -, hpend, rfl⟩ | ⟨hgate, -, rfl⟩
    · simp only [services, hgate, serviceTick_lost, serviceTick_pend, Bool.toNat_true, if_true]
      omega
    · simp [services, hgate, hpend]
    · simp only [services, hgate, loseTick_lost, loseTick_pend, Bool.toNat_false, if_true]
      omega
  | reset => exact absurd rfl hreset

/-- R29: no operation takes a tick off `LOST`. -/
theorem exec_lost_le (h : exec i s = .next t) : s.lost ≤ t.lost := by
  cases i with
  | store ch v => rw [exec_store_frame h]
  | load ch => rw [exec_load_frame h]
  | gateOff => rw [exec_gateOff_frame h]
  | gateOn => rw [exec_gateOn_frame h]
  | tick =>
    rcases exec_tick_cases h with ⟨-, rfl⟩ | ⟨-, -, -, rfl⟩ | ⟨-, -, rfl⟩
    · exact le_rfl
    · exact le_rfl
    · exact Nat.le_succ _
  | reset => rw [exec_reset_frame h]

/-- R29: no run of operations takes a tick off `LOST`. -/
theorem execAll_lost_le (h : execAll is s = .next t) : s.lost ≤ t.lost :=
  execAll_keeps (P := fun x => s.lost ≤ x.lost) (fun _ _ _ _ hx hy => hx.trans (exec_lost_le hy)) le_rfl h

/-- How many services the first operation of a list adds to the log. -/
theorem length_serviceLog_cons (h : exec i s = .next t) :
    (serviceLog (i :: is) s).length = (services i s).toNat + (serviceLog is t).length := by
  rw [serviceLog_cons h]
  cases services i s <;> simp [Nat.add_comm]

/-- R143: while no `RESET` comes, the arrivals are those serviced, those lost, and the one latched if any. -/
theorem execAll_accounts_for_ticks (hreset : Instr.reset ∉ is) (h : execAll is s = .next t) :
    (serviceLog is s).length + t.lost + t.pend.toNat = s.lost + s.pend.toNat + tickCount is := by
  induction is generalizing s with
  | nil => rw [← Host.Outcome.next.inj h]; simp [tickCount]
  | cons i is ih =>
    obtain ⟨m, hm⟩ := exec_next i s
    rw [execAll_cons hm] at h
    have hfirst := exec_accounts_for_ticks (List.ne_of_not_mem_cons hreset).symm hm
    have hrest := ih (List.not_mem_of_not_mem_cons hreset) h
    rw [length_serviceLog_cons hm, tickCount_cons]
    omega

/-- R24, R143: while no `RESET` comes, `ACC` counts the services, modulo 256. -/
theorem execAll_acc (hreset : Instr.reset ∉ is) (h : execAll is s = .next t) :
    t.acc = s.acc + BitVec.ofNat 8 (serviceLog is s).length := by
  induction is generalizing s with
  | nil => rw [← Host.Outcome.next.inj h]; exact (BitVec.add_zero _).symm
  | cons i is ih =>
    obtain ⟨m, hm⟩ := exec_next i s
    rw [execAll_cons hm] at h
    have hacc := accStepsOnlyOnServices i s m hm
    rw [if_neg (List.ne_of_not_mem_cons hreset).symm] at hacc
    rw [ih (List.not_mem_of_not_mem_cons hreset) h, hacc, length_serviceLog_cons hm]
    cases services i s with
    | false => simp
    | true => simp [BitVec.ofNat_add, add_assoc]

/-- Settles O41: a `RESET` leaves nothing latched and `ACC` at `ACC_RESET`, and the run after it accounts for the rest. -/
theorem ticksAreAccountedFor : Obligations.TicksAreAccountedFor := by
  intro is s₀ s t hs hreset h
  have hpend : s.pend = false := by rw [exec_reset_cases hs]; rfl
  have hacc : s.acc = t.params.accReset := by
    rw [execAll_keeps_params h, exec_reset_cases hs]
    rfl
  have hlost := execAll_lost_le h
  have hticks := execAll_accounts_for_ticks hreset h
  rw [hpend, Bool.toNat_false] at hticks
  refine ⟨by omega, hlost, ?_⟩
  rw [execAll_acc hreset h, hacc, BitVec.toNat_add, BitVec.toNat_ofNat, Nat.add_mod_mod]

end accounting

section ramp

variable {i : Instr} {is : List Instr} {s t : State}

/-- A state inside a window under `DEFER1` whose `LOST` was `n` at some point of it: an arrival has been lost since then only
if one is latched (R100). -/
structure LostOnlyIfPending (n : Nat) (s : State) : Prop where
  closed : s.gate = false
  defers : s.params.gatedTickPolicy = .defer1
  lost : s.lost = n ∨ s.pend = true

/-- R100, R27: no operation that keeps the gate closed loses a tick while none is latched, or takes the latched one. -/
theorem LostOnlyIfPending.exec_keeps {n : Nat} (hs : LostOnlyIfPending n s) (hon : i ≠ .gateOn) (hreset : i ≠ .reset)
    (h : exec i s = .next t) : LostOnlyIfPending n t where
  closed := exec_keeps_gate_closed hs.closed hon hreset h
  defers := (exec_keeps_params h).symm ▸ hs.defers
  lost := by
    cases i with
    | store ch v => rw [exec_store_frame h]; exact hs.lost
    | load ch => rw [exec_load_frame h]; exact hs.lost
    | gateOff => rw [exec_gateOff_frame h]; exact hs.lost
    | tick =>
      rcases exec_tick_cases h with ⟨hopen, -⟩ | ⟨-, -, -, rfl⟩ | ⟨-, hwhy, rfl⟩
      · simp [hs.closed] at hopen
      · exact .inr rfl
      · exact .inr (hwhy.resolve_left (by simp [hs.defers]))
    | gateOn => exact absurd rfl hon
    | reset => exact absurd rfl hreset

/-- R100: a window that a `GATE_OFF` opens under `DEFER1` loses no tick unless it also ends with one latched. -/
theorem execAll_window_lost_or_pend (hdefer : s.params.gatedTickPolicy = .defer1) (hstay : staysGated is)
    (h : execAll (.gateOff :: is) s = .next t) : t.lost = s.lost ∨ t.pend = true := by
  obtain ⟨m, hm⟩ := exec_next .gateOff s
  rw [execAll_cons hm] at h
  have hopened : LostOnlyIfPending s.lost m :=
    ⟨exec_gateOff_closes hm, (exec_keeps_params hm).symm ▸ hdefer, .inl (by rw [exec_gateOff_frame hm])⟩
  refine (execAll_keeps (fun i hi x y hx hy => ?_) hopened h).lost
  obtain ⟨hon, hreset⟩ := hstay.ne_of_mem hi
  exact hx.exec_keeps hon hreset hy

/-- R141: the `GATE_ON` that ends a window steps `ACC` exactly where a tick was deferred, and loses none. -/
theorem exec_gateOn_ramp (hgate : s.gate = false) (h : exec .gateOn s = .next t) :
    t.acc = (if s.pend then s.acc + 1 else s.acc) ∧ t.lost = s.lost := by
  refine ⟨?_, by rw [exec_gateOn_frame h]⟩
  rw [accStepsOnlyOnServices .gateOn s t h, if_neg nofun, services_gateOn_of_gate_closed hgate]

/-- R143: a window that a `GATE_OFF` opens with nothing latched leaves `ACC` alone, and latches or loses every arrival. -/
theorem execAll_window_ramp (hpend : s.pend = false) (hstay : staysGated is)
    (h : execAll (.gateOff :: is) s = .next t) : t.acc = s.acc ∧ t.lost + t.pend.toNat = s.lost + tickCount is := by
  have hreset := hstay.gateOff_cons.2
  have hticks := execAll_accounts_for_ticks hreset h
  rw [serviceLog_gateOff_cons hstay, hpend, tickCount_cons, if_neg nofun] at hticks
  refine ⟨?_, by simpa using hticks⟩
  rw [execAll_acc hreset h, serviceLog_gateOff_cons hstay]
  exact BitVec.add_zero _

/-- Settles O31: the window latches or loses its arrivals, and the `GATE_ON` services the one latched. Under `DEFER1` one is
latched if any arrived, since none is lost otherwise; under `DROP` the invariants say that none is. -/
theorem windowMovesTheRampAtMostOnce : Obligations.WindowMovesTheRampAtMostOnce := by
  intro window s t hs hgate hstay h
  have hnone : s.pend = false := by
    rw [← Bool.not_eq_true]
    intro hpend
    simp [hs.pendNeedsClosedGate hpend] at hgate
  obtain ⟨m, hm⟩ := execAll_next (.gateOff :: window) s
  rw [execAll_append hm, execAll_singleton] at h
  obtain ⟨hacc, hlost⟩ := exec_gateOn_ramp (execAll_gateOff_cons_closes hstay hm) h
  obtain ⟨hwindowAcc, hwindowLost⟩ := execAll_window_ramp hnone hstay hm
  rw [hacc, hlost, hwindowAcc]
  refine ⟨fun hdefer => ?_, fun hdrop => ?_⟩
  · have hsome := execAll_window_lost_or_pend hdefer hstay hm
    have hle := execAll_lost_le hm
    cases hpend : m.pend with
    | false =>
      rw [hpend, Bool.toNat_false] at hwindowLost
      have hkept : m.lost = s.lost := hsome.resolve_right (by simp [hpend])
      have hzero : tickCount window = 0 := by omega
      exact ⟨by simp [hzero], by omega⟩
    | true =>
      rw [hpend, Bool.toNat_true] at hwindowLost
      have hpos : tickCount window ≠ 0 := by omega
      exact ⟨by simp [hpos], by omega⟩
  · have hpend : m.pend = false :=
      (execAll_keeps_inv hs hm).dropNeverPends (by rw [execAll_keeps_params hm, hdrop])
    rw [hpend, Bool.toNat_false] at hwindowLost
    exact ⟨by simp [hpend], by omega⟩

end ramp

section documentedWriter

variable {s : State} {i : Instr} {u : Frame} {k : Nat}

/-- R160, R161: with the documented writer as the only one, an operation is a `TICK`, a `RESET`, or the writer's next queued
one. -/
theorem delivered_of_documentedEvent {e : Event} {rest : List Event} (htrace : s.trace = e :: rest)
    (hdoc : documentedEvent e = true) (h : delivered s = some i) :
    i = .tick ∨ i = .reset ∨ s.writer.queue.head? = some i := by
  cases e with
  | op a w =>
    cases a with
    | tickSource =>
      obtain rfl : w = encode .tick := of_decide_eq_true hdoc
      simp only [delivered, htrace, decode_encode, issuer, if_true] at h
      exact .inl (Option.some.inj h).symm
    | environment =>
      obtain rfl : w = encode .reset := of_decide_eq_true hdoc
      simp only [delivered, htrace, decode_encode, issuer, if_true] at h
      exact .inr (.inl (Option.some.inj h).symm)
    | writer => simp [documentedEvent] at hdoc
  | writerTurn =>
    simp only [delivered, htrace] at h
    exact .inr (.inr h)
  | serialByte b => simp [delivered, htrace] at h
  | advance v => simp [delivered, htrace] at h

/-- R161: inside a `frame` the writer's next operation is a store as long as one is outstanding. -/
theorem InsideFrame.stores_done (hin : InsideFrame u k s) (hnext : s.writer.queue.head? = some .gateOn) : k = 12 := by
  have hle := hin.storesLeft
  by_contra hne
  rw [hin.queueIsRest, List.head?_drop, frameOps_getElem?_succ u k (by omega)] at hnext
  simp at hnext

/-- R161: after the 12 stores of a `frame` the duty file is that frame. -/
theorem InsideFrame.duty_eq (hin : InsideFrame u 12 s) : s.duty = u :=
  Vector.ext fun c hc => hin.written ⟨c, hc⟩ hc

/-- Settles O57: inside a `frame` the gate is closed, so only a `GATE_ON` services a tick, and the writer issues that after the
12 stores. -/
theorem documentedServiceSeesAWholeFrame : Obligations.DocumentedServiceSeesAWholeFrame := by
  intro s e rest i htrace hdoc hcontract hdel hserv
  rcases hcontract.whereItIs with hbetween | ⟨u, k, hin⟩
  · exact .inl hbetween
  · rcases services_cases hserv with ⟨-, hopen⟩ | ⟨rfl, -, -⟩
    · simp [hin.closed] at hopen
    · have hnext : s.writer.queue.head? = some .gateOn := by
        simpa using delivered_of_documentedEvent htrace hdoc hdel
      obtain rfl : k = 12 := hin.stores_done hnext
      exact .inr ⟨u, hin, hin.duty_eq⟩

end documentedWriter

end Sys2Proof.Machine
end

section
/-! PROOFS. The statements of 45_writer_agent.md: what one event does to the documented writer (R160, R171), the operations its
commands queue (R162 to R168, R172), and its contract with the block (R161, R169). -/

namespace Sys2Proof.Machine

section events

variable {s : State}

/-- R9: the event at the front of the trace is taken off it and run. -/
theorem step_of_event {e : Event} {rest : List Event} (h : s.trace = e :: rest) :
    step s = runEvent e { s with trace := rest } := by
  simp only [step, nextEvent, h]

/-- R160: at its turn the writer issues the operation at the head of its queue. -/
theorem writerTurn_of_queue {i : Instr} {more : List Instr} (hq : s.writer.queue = i :: more) (hi : issuer i = .writer) :
    writerTurn s = exec i (accept { s with writer := { s.writer with queue := more } }) := by
  simp only [writerTurn, hq, operate_of_issuer (decode_encode i) hi]

/-- R160: with nothing to issue, the writer's turn reaches the writer alone. -/
theorem writerTurn_of_idle (hq : s.writer.queue = []) :
    writerTurn s = .next { s with writer := readNext s.params s.writer } := by
  simp only [writerTurn, hq]

/-- R171: received bytes are read oldest first. -/
theorem readNext_of_received {p : Params} {wr : Writer} {b : Byte} {bs : List Byte} (h : wr.received = b :: bs) :
    readNext p wr = readByte p b { wr with received := bs } := by
  simp only [readNext, h]

/-- R171: with no byte received there is nothing to read. -/
theorem readNext_of_none_received {p : Params} {wr : Writer} (h : wr.received = []) : readNext p wr = wr := by
  simp only [readNext, h]

/-- Settles O12: the turn issues the head of the queue, or else reads the oldest byte; a byte that arrives is only kept. -/
theorem writerTurnRunsTheQueuedOperation : Obligations.WriterTurnRunsTheQueuedOperation := by
  intro s rest
  refine ⟨fun i more h hq hi => ?_, fun b bs h hq hb => ?_, fun h hq hb => ?_, fun b h => step_of_event h⟩
  · exact (step_of_event h).trans (writerTurn_of_queue hq hi)
  · rw [← readNext_of_received hb]
    exact (step_of_event h).trans (writerTurn_of_idle hq)
  · calc step s = writerTurn { s with trace := rest } := step_of_event h
      _ = .next { s with trace := rest, writer := readNext s.params s.writer } := writerTurn_of_idle hq
      _ = .next { s with trace := rest } := by rw [readNext_of_none_received hb]

end events

section otherCommands

variable {p : Params} {wr : Writer} {b : Byte}

/-- R162 to R167: between commands a byte is read as a command. -/
theorem readByte_of_command (h : wr.phase = .command) : readByte p b wr = readCommand b wr := by
  simp only [readByte, h]

/-- R164: set speed and its payload byte. -/
theorem readByte_speed (h : wr.phase = .command) :
    readByte p b (readByte p 0xFD wr) = { wr with speed := max 1 (min b.toNat 10) } := by
  have hcommand : readByte p 0xFD wr = { wr with phase := .speed } := readByte_of_command h
  rw [hcommand]
  simp only [readByte, clampSpeed, h]

/-- R167: a byte below the five command bytes is no command. -/
theorem readCommand_unknown (h : b.toNat < 0xFB) : readCommand b wr = wr := by
  unfold readCommand
  split
  case h_6 => rfl
  all_goals omega

/-- R82, R162, R163: channel `k` of a frame put together from bytes is byte `k`. -/
theorem frameOf_getElem {bs : List Byte} {k : Nat} (hk : k < 12) {x : Byte} (h : bs[k]? = some x) :
    (frameOf bs)[k] = x := by
  simp [frameOf, List.getD_eq_getElem?_getD, h]

/-- R82, R162, R163: a frame put together from 12 bytes or more holds the first 12. -/
theorem getElem?_eq_frameOf {bs : List Byte} (hlen : 12 ≤ bs.length) {k : Nat} (hk : k < 12) :
    bs[k]? = some (frameOf bs)[k] := by
  have hget : bs[k]? = some (bs[k]'(by omega)) := List.getElem?_eq_getElem _
  rw [frameOf_getElem hk hget, hget]

/-- R168: what it takes for the Playback Engine to advance (log entry 15). -/
theorem canAdvance_iff : canAdvance wr = true ↔ wr.playback = .playing ∧ wr.phase = .command ∧ wr.queue = [] := by
  simp [canAdvance, and_assoc]

/-- Settles O60: each command byte is read in the branch of `readCommand` its rule describes, and `canAdvance_iff` says when an
advance queues its frame. -/
theorem otherCommandsDoWhatTheyAreSaidTo : Obligations.OtherCommandsDoWhatTheyAreSaidTo := by
  refine ⟨fun p wr b hphase => ⟨readByte_speed hphase, fun hlen => ?_, fun hlen => ?_, ?_, fun hb => ?_⟩,
    fun s u rest h => ⟨fun hcan => ?_, fun hcan => ?_⟩⟩
  · exact (readByte_of_command hphase).trans (if_pos hlen)
  · refine ⟨frameOf wr.store, ?_, fun k hk x hx => frameOf_getElem hk hx⟩
    have hstart : readCommand 0xFC wr = startPlayback wr := if_neg (by omega)
    rw [readByte_of_command hphase, hstart, startPlayback, ← hphase]
  · exact readByte_of_command hphase
  · rw [readByte_of_command hphase, readCommand_unknown hb]
  · rw [step_of_event h, runEvent, advancePlayback, if_pos (canAdvance_iff.mpr hcan)]
  · rw [step_of_event h, runEvent, advancePlayback, if_neg (mt canAdvance_iff.mp hcan)]

end otherCommands

section payload

/-! The bytes of a command, read one after the other. -/

/-- The writer after it has read some bytes, in order (R171). -/
def readBytes (p : Params) (bs : List Byte) (wr : Writer) : Writer := bs.foldl (fun w b => readByte p b w) wr

variable {p : Params} {wr : Writer} {bs : List Byte}

theorem foldl_readByte : bs.foldl (fun w b => readByte p b w) wr = readBytes p bs wr := rfl

theorem readBytes_concat (b : Byte) : readBytes p (bs ++ [b]) wr = readByte p b (readBytes p bs wr) :=
  List.foldl_concat ..

/-- R162: command 0xFF gathers its payload bytes up to the 12th. -/
theorem readBytes_colour_gathers (h : bs.length < 12) :
    readBytes p bs { wr with phase := .colour [] } = { wr with phase := .colour bs } := by
  induction bs using List.reverseRecOn with
  | nil => rfl
  | append_singleton bs b ih =>
    have hmore : bs.length + 1 < 12 := by simpa using h
    rw [readBytes_concat, ih (by omega)]
    exact if_pos hmore

/-- R162: the 12th payload byte of command 0xFF stops playback and queues the frame. -/
theorem readBytes_colour_completes (h : bs.length = 12) :
    readBytes p bs { wr with phase := .colour [] } =
      { wr with playback := .stopped, phase := .command, queue := frameOps (frameOf bs) } := by
  obtain rfl | ⟨bs, b, rfl⟩ := List.eq_nil_or_concat' bs
  · simp at h
  · have hlast : bs.length = 11 := by simpa using h
    rw [readBytes_concat, readBytes_colour_gathers (by omega)]
    exact if_neg (by simp [hlast])

/-- Settles O58: the payload is gathered byte by byte, and the 12th byte queues the frame. -/
theorem colourCommandQueuesItsFrame : Obligations.ColourCommandQueuesItsFrame := by
  intro p wr bs hphase hq
  have hcommand : readByte p 0xFF wr = { wr with phase := .colour [] } := readByte_of_command hphase
  rw [foldl_readByte, hcommand]
  refine ⟨fun hlen => ?_, fun hlen => ?_⟩
  · rw [readBytes_colour_gathers hlen]
    exact hq
  · rw [readBytes_colour_completes hlen]
    exact ⟨rfl, rfl, frameOf bs, rfl, fun k hk => getElem?_eq_frameOf hlen.ge hk⟩

end payload

section upload

variable {p : Params} {wr : Writer} {n excess : Nat} {got : List Byte}

/-- The Pattern Store after its first bytes were written, in order from the start (R163 step 3). -/
def overwrite (store got : List Byte) : List Byte := got ++ store.drop got.length

@[simp] theorem overwrite_nil (store : List Byte) : overwrite store [] = store := rfl

/-- The next byte written goes after the ones before it. -/
theorem storeByte_overwrite (store : List Byte) (b : Byte) :
    storeByte (overwrite store got) got.length b = overwrite store (got ++ [b]) := by
  simp [storeByte, overwrite, List.drop_append]

/-- What the writer waits for in command 0xFE, `read` bytes after the length byte: a frame byte, or one of the `excess` bytes
beyond the clamped length (R163 steps 3 and 4). -/
def uploadPhase (n excess read : Nat) : Phase :=
  if read < n * 12 then .uploadFrames n excess read else .uploadDrain n (n * 12 + excess - read)

/-- The writer `wr` in the middle of command 0xFE, with the bytes `got` read after the length byte (R163). -/
def duringUpload (n excess : Nat) (got : List Byte) (wr : Writer) : Writer :=
  { wr with store := overwrite wr.store (got.take (n * 12)), phase := uploadPhase n excess got.length }

/-- How many bytes command 0xFE reads after its length byte (R163, 92 D19). -/
def uploadBytes (p : Params) (n excess : Nat) : Nat := n * 12 + (if p.drainExcess then excess else 0)

/-- The writer `wr` in command 0xFE, with the bytes `got` read after the length byte: in the middle of the upload, or done with
it (R163). -/
def afterUploadBytes (p : Params) (n excess : Nat) (got : List Byte) (wr : Writer) : Writer :=
  if got.length < uploadBytes p n excess then duringUpload n excess got wr
  else finishUpload n (duringUpload n excess got wr)

/-- R163 step 3: a frame byte is outstanding, and the bytes read are all stored. -/
theorem duringUpload_frames (h : got.length < n * 12) :
    duringUpload n excess got wr =
      { wr with store := overwrite wr.store got, phase := .uploadFrames n excess got.length } := by
  rw [duringUpload, List.take_of_length_le h.le, uploadPhase, if_pos h]

/-- R163 step 4: the frames are stored, and the bytes beyond them are not. -/
theorem duringUpload_excess (h : n * 12 ≤ got.length) :
    duringUpload n excess got wr =
      { wr with
        store := overwrite wr.store (got.take (n * 12))
        phase := .uploadDrain n (n * 12 + excess - got.length) } := by
  rw [duringUpload, uploadPhase, if_neg h.not_gt]

/-- R163 steps 5 and 6 do not depend on what the writer waited for. -/
theorem finishUpload_phase (n : Nat) (wr : Writer) (store : List Byte) (ph ph' : Phase) :
    finishUpload n { wr with store := store, phase := ph } = finishUpload n { wr with store := store, phase := ph' } := by
  unfold finishUpload
  split <;> rfl

/-- R163 step 3: a frame byte is stored; the upload ends with the last one where no byte beyond the clamped length is read. -/
theorem readByte_frameByte (b : Byte) (h : got.length < n * 12) :
    readByte p b (duringUpload n excess got wr) = afterUploadBytes p n excess (got ++ [b]) wr := by
  have hlength : (got ++ [b]).length = got.length + 1 := List.length_append
  rw [afterUploadBytes, hlength, duringUpload_frames h]
  simp only [readByte, readFrameByte, storeByte_overwrite]
  by_cases hmore : got.length + 1 < n * 12
  · have hgoes : got.length + 1 < uploadBytes p n excess := Nat.lt_add_right _ hmore
    rw [if_pos hmore, if_pos hgoes, duringUpload_frames (hlength.trans_lt hmore), hlength]
  · have hlast : got.length + 1 = n * 12 := by omega
    have hdrain : got.length + 1 < uploadBytes p n excess ↔ (p.drainExcess && decide (0 < excess)) = true := by
      rw [uploadBytes, hlast]
      cases p.drainExcess <;> simp
    have hall : (got ++ [b]).take (n * 12) = got ++ [b] := List.take_of_length_le (hlength.trans hlast).le
    have hleft : n * 12 + excess - (got ++ [b]).length = excess := by omega
    rw [if_neg hmore, duringUpload_excess (hlength.trans hlast).ge, hall, hleft,
      finishUpload_phase n wr (overwrite wr.store (got ++ [b])) _ (.uploadDrain n excess)]
    simp only [hdrain]

/-- R163 step 4: a byte beyond the clamped length is discarded, and the last one ends the upload. -/
theorem readByte_excessByte (b : Byte) (h : n * 12 ≤ got.length) (hleft : got.length < uploadBytes p n excess) :
    readByte p b (duringUpload n excess got wr) = afterUploadBytes p n excess (got ++ [b]) wr := by
  have hdrain : p.drainExcess = true := by
    by_contra hno
    rw [uploadBytes, if_neg hno] at hleft
    omega
  have htotal : uploadBytes p n excess = n * 12 + excess := by rw [uploadBytes, if_pos hdrain]
  have hlength : (got ++ [b]).length = got.length + 1 := List.length_append
  have hafter : n * 12 ≤ (got ++ [b]).length := by omega
  rw [afterUploadBytes, duringUpload_excess h, duringUpload_excess hafter, List.take_append_of_le_length h, hlength,
    ← Nat.sub_sub, htotal]
  simp only [readByte, readExcess]
  by_cases hmore : got.length + 1 < n * 12 + excess
  · rw [if_neg (by omega), if_pos hmore]
  · rw [if_pos (by omega), if_neg hmore]
    exact finishUpload_phase ..

/-- R163: the upload goes on with every byte before the last, and ends with that. -/
theorem readByte_duringUpload (b : Byte) (h : got.length < uploadBytes p n excess) :
    readByte p b (duringUpload n excess got wr) = afterUploadBytes p n excess (got ++ [b]) wr := by
  rcases Nat.lt_or_ge got.length (n * 12) with hframe | hexcess
  · exact readByte_frameByte b hframe
  · exact readByte_excessByte b hexcess h

/-- R163: the bytes of an upload, one after the other. -/
theorem readBytes_duringUpload (hpos : 0 < uploadBytes p n excess) (h : got.length ≤ uploadBytes p n excess) :
    readBytes p got (duringUpload n excess [] wr) = afterUploadBytes p n excess got wr := by
  induction got using List.reverseRecOn with
  | nil => exact (if_pos hpos).symm
  | append_singleton got b ih =>
    have hbefore : got.length < uploadBytes p n excess := by simpa using h
    rw [readBytes_concat, ih hbefore.le, afterUploadBytes, if_pos hbefore, readByte_duringUpload b hbefore]

/-- R163 step 1: command 0xFE stops playback, and its length byte is read next. -/
theorem readBytes_uploadCommand (len : Byte) (got : List Byte) (h : wr.phase = .command) :
    readBytes p (0xFE :: len :: got) wr =
      readBytes p got (readLength len { wr with playback := .stopped, phase := .uploadLength }) := by
  have hcommand : readByte p 0xFE wr = { wr with playback := .stopped, phase := .uploadLength } := readByte_of_command h
  simp only [readBytes, List.foldl_cons, hcommand]
  rfl

section length

variable {len : Byte} (hn : n = min len.toNat 60) (hexcess : excess = (len.toNat - 60) * 12)

include hn hexcess

/-- R163 step 2: a length byte that is not 0 is clamped, and the upload begins. -/
theorem readLength_pos (h : 0 < len.toNat) : readLength len wr = duringUpload n excess [] wr := by
  have hframes : 0 < n * 12 := by omega
  rw [duringUpload, uploadPhase, List.length_nil, if_pos hframes, List.take_nil, overwrite_nil, hn, hexcess]
  exact if_neg h.ne'

/-- R163: command 0xFE up to any of its bytes from the length byte on; a length of 0 makes that the last. -/
theorem readBytes_upload (h : wr.phase = .command) (hgot : got.length ≤ uploadBytes p n excess) :
    readBytes p (0xFE :: len :: got) wr = afterUploadBytes p n excess got { wr with playback := .stopped } := by
  rw [readBytes_uploadCommand len got h]
  rcases Nat.eq_zero_or_pos len.toNat with hzero | hpos
  · obtain rfl : n = 0 := by omega
    obtain rfl : excess = 0 := by omega
    have htotal : uploadBytes p 0 0 = 0 := by simp [uploadBytes]
    obtain rfl : got = [] := List.length_eq_zero_iff.mp (by omega)
    have hlast (x : Writer) : readLength len x = finishUpload 0 x := if_pos hzero
    rw [hlast, afterUploadBytes, htotal]
    rfl
  · have htotal : 0 < uploadBytes p n excess := Nat.add_pos_left (by omega) _
    rw [readLength_pos hn hexcess hpos]
    exact readBytes_duringUpload htotal hgot

end length

/-- R163 steps 5 and 6: a pattern that is not empty starts playing. -/
theorem finishUpload_pos (h : 0 < n) : finishUpload n wr = startPlayback { wr with patternLength := n } := if_neg h.ne'

/-- R163 step 6, R172: playback starts with frame 0, unchanged, of the pattern just stored. -/
theorem finishUpload_plays {store bs : List Byte} (hn : 0 < n) (hbs : 12 ≤ bs.length)
    (hstore : wr.store = overwrite store bs) :
    (finishUpload n wr).store.take bs.length = bs ∧ (finishUpload n wr).playback = .playing ∧
      ∃ u : Frame, (finishUpload n wr).queue = frameOps u ∧ ∀ (k : Nat) (h : k < 12), bs[k]? = some u[k] := by
  have hbegins : wr.store.take bs.length = bs := by rw [hstore, overwrite, List.take_left]
  have hbyte (k : Nat) (hk : k < 12) : bs[k]? = wr.store[k]? := by
    rw [hstore, overwrite, List.getElem?_append_left (by omega)]
  have hlen : 12 ≤ wr.store.length := by
    rw [hstore, overwrite, List.length_append]
    omega
  rw [finishUpload_pos hn]
  exact ⟨hbegins, rfl, frameOf wr.store, rfl, fun k hk => (hbyte k hk).trans (getElem?_eq_frameOf hlen hk)⟩

/-- Settles O59: up to its last byte the writer is in the middle of the upload, and the last byte finishes it on a Pattern
Store that begins with the frames. -/
theorem uploadStoresTheClampedPattern : Obligations.UploadStoresTheClampedPattern := by
  intro p wr len bs extra hphase hq hbs hextra
  obtain ⟨n, hn⟩ : ∃ n, n = min len.toNat 60 := ⟨_, rfl⟩
  obtain ⟨excess, hexcess⟩ : ∃ excess, excess = (len.toNat - 60) * 12 := ⟨_, rfl⟩
  rw [← hn] at hbs
  rw [← hexcess] at hextra
  have htotal : (bs ++ extra).length = uploadBytes p n excess := by
    rw [List.length_append, hbs, hextra, uploadBytes]
  simp only [foldl_readByte, readBytes_upload hn hexcess hphase htotal.le, afterUploadBytes, htotal.not_lt, if_false]
  refine ⟨fun m hpos hm => ?_, ?_⟩
  · rcases m with _ | _ | m
    · omega
    · have hlength : readBytes p [0xFE] wr = { wr with playback := .stopped, phase := .uploadLength } :=
        readByte_of_command hphase
      rw [List.take_succ_cons, List.take_zero, hlength]
      exact ⟨hq, rfl, rfl⟩
    · have hbefore : ((bs ++ extra).take m).length < uploadBytes p n excess := by
        rw [← htotal, List.length_take]
        simp only [List.length_cons] at hm
        omega
      rw [List.take_succ_cons, List.take_succ_cons, readBytes_upload hn hexcess hphase hbefore.le, afterUploadBytes,
        if_pos hbefore]
      exact ⟨hq, rfl, rfl⟩
  · rcases Nat.eq_zero_or_pos len.toNat with hzero | hpos
    · obtain rfl : n = 0 := by omega
      exact ⟨rfl, hn, fun _ => ⟨hq, rfl⟩, fun hpos => absurd hzero hpos.ne'⟩
    · have hframes : 0 < n := by omega
      have hstore : (duringUpload n excess (bs ++ extra) { wr with playback := .stopped }).store = overwrite wr.store bs :=
        congrArg (overwrite wr.store) (List.take_left' hbs)
      have hplays := finishUpload_plays hframes (by omega) hstore
      rw [finishUpload_pos hframes] at hplays ⊢
      exact ⟨rfl, hn, fun hzero => absurd hzero hpos.ne', fun _ => hplays⟩

end upload

section queued

/-- The writer has nothing to issue, or it is between commands with one whole frame to issue (R161). -/
def QueuesWholeFrames (wr : Writer) : Prop := wr.queue = [] ∨ (wr.phase = .command ∧ ∃ u, wr.queue = frameOps u)

/-- R163 step 6, R165: playback starts with one frame. -/
theorem startPlayback_queuesWholeFrames (wr : Writer) : QueuesWholeFrames (startPlayback wr) := .inr ⟨rfl, _, rfl⟩

/-- R163 steps 5 and 6: an upload ends with nothing to issue, or starts playback. -/
theorem finishUpload_queuesWholeFrames (n : Nat) (wr : Writer) (hq : wr.queue = []) :
    QueuesWholeFrames (finishUpload n wr) := by
  unfold finishUpload
  split
  · exact .inl hq
  · exact startPlayback_queuesWholeFrames _

/-- R162 to R167: of the command bytes, only start can queue operations. -/
theorem readCommand_queuesWholeFrames (b : Byte) (wr : Writer) (hq : wr.queue = []) :
    QueuesWholeFrames (readCommand b wr) := by
  unfold readCommand
  split
  case h_4 =>
    split
    · exact .inl hq
    · exact startPlayback_queuesWholeFrames wr
  all_goals exact .inl hq

/-- R161 to R168: whatever the byte and whatever the writer waits for, one byte queues nothing or one whole frame. -/
theorem readByte_queuesWholeFrames (p : Params) (b : Byte) (wr : Writer) (hq : wr.queue = []) :
    QueuesWholeFrames (readByte p b wr) := by
  cases hphase : wr.phase with
  | command =>
    rw [readByte_of_command hphase]
    exact readCommand_queuesWholeFrames b wr hq
  | colour got =>
    simp only [readByte, hphase, readColour]
    split
    · exact .inl hq
    · exact .inr ⟨rfl, _, rfl⟩
  | uploadLength =>
    simp only [readByte, hphase, readLength]
    split
    · exact finishUpload_queuesWholeFrames 0 wr hq
    · exact .inl hq
  | uploadFrames n excess read =>
    simp only [readByte, hphase, readFrameByte]
    split
    · exact .inl hq
    · split
      · exact .inl hq
      · exact finishUpload_queuesWholeFrames n _ hq
  | uploadDrain n left =>
    simp only [readByte, hphase, readExcess]
    split
    · exact finishUpload_queuesWholeFrames n wr hq
    · exact .inl hq
  | speed =>
    simp only [readByte, hphase]
    exact .inl hq

/-- R160, R171: a turn with nothing to issue queues nothing or one whole frame. -/
theorem readNext_queuesWholeFrames (p : Params) (wr : Writer) (hq : wr.queue = []) :
    QueuesWholeFrames (readNext p wr) := by
  cases hreceived : wr.received with
  | nil => rw [readNext_of_none_received hreceived]; exact .inl hq
  | cons b bs => rw [readNext_of_received hreceived]; exact readByte_queuesWholeFrames p b _ hq

end queued

section contract

variable {s t : State} {u : Frame} {k : Nat}

/-- The contract reads five things only (R161). -/
theorem WriterContract.congr (hs : WriterContract s) (hq : t.writer.queue = s.writer.queue)
    (hphase : t.writer.phase = s.writer.phase) (hgate : t.gate = s.gate) (hwin : t.winStores = s.winStores)
    (hduty : t.duty = s.duty) : WriterContract t where
  whereItIs := by
    rcases hs.whereItIs with ⟨hopen, hnone, hframe⟩ | ⟨u, k, hle, hrest, hclosed, hcount, hwritten⟩
    · exact .inl ⟨hgate.trans hopen, hwin.trans hnone, by rwa [hq]⟩
    · exact .inr ⟨u, k, hle, hq.trans hrest, hgate.trans hclosed, hwin.trans hcount, by rwa [hduty]⟩
  waitsWithOpenGate := by rw [hq, hphase, hgate]; exact hs.waitsWithOpenGate

/-- The contract with the gate open: no store counted, and nothing or one whole frame to issue (R161). -/
theorem writerContract_of_gate_open (hgate : t.gate = true) (hwin : t.winStores = 0)
    (hqueue : QueuesWholeFrames t.writer) : WriterContract t where
  whereItIs := .inl ⟨hgate, hwin, hqueue.imp_right And.right⟩
  waitsWithOpenGate hwaits := ⟨hqueue.resolve_right fun h => hwaits h.1, hgate⟩

/-- The contract inside a frame: the writer is between commands (R161). -/
theorem InsideFrame.writerContract (hin : InsideFrame u k t) (hphase : t.writer.phase = .command) : WriterContract t where
  whereItIs := .inr ⟨u, k, hin⟩
  waitsWithOpenGate hwaits := absurd hphase hwaits

/-- R161: with operations left to issue the writer is between commands. -/
theorem WriterContract.phase_of_queue (hs : WriterContract s) (hq : s.writer.queue ≠ []) : s.writer.phase = .command := by
  by_contra hwaits
  exact hq (hs.waitsWithOpenGate hwaits).1

/-- R161: inside a frame, before the 12 stores are done, the next one is at the head of the queue. -/
theorem InsideFrame.queue_of_lt (hin : InsideFrame u k s) (hk : k < 12) :
    s.writer.queue = .store (BitVec.ofNat 4 k) u[k] :: (frameOps u).drop (k + 2) := by
  rw [hin.queueIsRest, List.drop_eq_getElem?_toList_append, frameOps_getElem?_succ u k hk]
  rfl

/-- R161: inside a frame, after its 12 stores, only the `GATE_ON` is left. -/
theorem InsideFrame.queue_of_stores_done (hin : InsideFrame u 12 s) : s.writer.queue = [.gateOn] := hin.queueIsRest

/-- R161: inside a frame there is always an operation left to issue. -/
theorem WriterContract.between_of_idle (hs : WriterContract s) (hq : s.writer.queue = []) : BetweenFrames s := by
  refine hs.whereItIs.resolve_right fun ⟨u, k, hin⟩ => ?_
  have hlength : (frameOps u).length = 14 := rfl
  have hnone : (frameOps u).length ≤ k + 1 := List.drop_eq_nil_iff.mp (hin.queueIsRest.symm.trans hq)
  have hle := hin.storesLeft
  omega

/-- R140, R161: the `GATE_OFF` of a frame opens its window. -/
theorem exec_gateOff_of_frame (h : exec .gateOff s = .next t) (hopen : s.gate = true) (hphase : s.writer.phase = .command)
    (hq : s.writer.queue = (frameOps u).drop 1) : WriterContract t ∧ t.faults = s.faults := by
  rw [exec_gateOff, if_pos hopen] at h
  obtain rfl := Host.Outcome.next.inj h
  have hin : InsideFrame u 0 (closeGate s) := ⟨Nat.zero_le _, hq, rfl, rfl, fun _ hc => absurd hc (Nat.not_lt_zero _)⟩
  exact ⟨hin.writerContract hphase, rfl⟩

/-- R120, R161: the next store of a frame is counted in its window, which has room for it. -/
theorem exec_store_of_frame (hk : k < 12) (h : exec (.store (BitVec.ofNat 4 k) u[k]) s = .next t)
    (hclosed : s.gate = false) (hcount : s.winStores = k) (hwritten : ∀ c : Fin 12, c.val < k → s.duty[c] = u[c])
    (hphase : s.writer.phase = .command) (hq : s.writer.queue = (frameOps u).drop (k + 2)) :
    WriterContract t ∧ t.faults = s.faults := by
  have hch : (BitVec.ofNat 4 k).toNat = k := (BitVec.toNat_ofNat ..).trans (Nat.mod_eq_of_lt (by omega))
  rw [exec_store_in_window u[k] (hch.trans_lt hk) hclosed (hcount.trans_lt hk)] at h
  obtain rfl := Host.Outcome.next.inj h
  have hin : InsideFrame u (k + 1)
      { s with duty := s.duty.set (BitVec.ofNat 4 k).toNat u[k], winStores := s.winStores + 1 } := by
    simp only [hch]
    refine ⟨hk, hq, hclosed, congrArg (· + 1) hcount, fun c hc => ?_⟩
    by_cases hck : k = c.val
    · simp [hck]
    · exact (Vector.getElem_set_ne hk c.isLt hck).trans (hwritten c (by omega))
  exact ⟨hin.writerContract hphase, rfl⟩

/-- R141, R161: the `GATE_ON` of a frame ends its window. -/
theorem exec_gateOn_of_frame (h : exec .gateOn s = .next t) (hclosed : s.gate = false) (hq : s.writer.queue = []) :
    WriterContract t ∧ t.faults = s.faults := by
  obtain ⟨hopen, hnone⟩ := exec_gateOn_ends_window hclosed h
  have hframe := exec_gateOn_frame h
  have hidle : t.writer.queue = [] := by rw [hframe]; exact hq
  exact ⟨writerContract_of_gate_open hopen hnone (.inl hidle), by rw [hframe]⟩

/-- R100, R161: a `TICK` reaches nothing of the contract. -/
theorem exec_tick_keeps_contract (hs : WriterContract s) (h : exec .tick s = .next t) :
    WriterContract t ∧ t.faults = s.faults := by
  rw [exec_tick_frame h]
  exact ⟨hs.congr rfl rfl rfl rfl rfl, rfl⟩

/-- R210: a `RESET` leaves the gate open and the writer with nothing to issue. -/
theorem exec_reset_contract (h : exec .reset s = .next t) : WriterContract t ∧ t.faults = s.faults := by
  rw [exec_reset_cases h]
  exact ⟨writerContract_of_gate_open rfl rfl (.inl rfl), rfl⟩

/-- R160, R161: the writer's turn reads a byte, opens the window of a frame, or goes on with one. -/
theorem writerTurn_keeps_contract (hs : WriterContract s) (h : writerTurn s = .next t) :
    WriterContract t ∧ t.faults = s.faults := by
  by_cases hq : s.writer.queue = []
  · have hbetween : BetweenFrames s := hs.between_of_idle hq
    rw [writerTurn_of_idle hq] at h
    obtain rfl := Host.Outcome.next.inj h
    exact ⟨writerContract_of_gate_open hbetween.opened hbetween.noneCounted (readNext_queuesWholeFrames _ _ hq), rfl⟩
  have hphase : s.writer.phase = .command := hs.phase_of_queue hq
  rcases hs.whereItIs with ⟨hopen, -, hnone | ⟨u, hframe⟩⟩ | ⟨u, k, hin⟩
  · exact absurd hnone hq
  · rw [writerTurn_of_queue hframe rfl] at h
    exact (exec_gateOff_of_frame h hopen hphase rfl :)
  · rcases hin.storesLeft.lt_or_eq with hk | rfl
    · rw [writerTurn_of_queue (hin.queue_of_lt hk) rfl] at h
      exact (exec_store_of_frame hk h hin.closed hin.counted hin.written hphase rfl :)
    · rw [writerTurn_of_queue hin.queue_of_stores_done rfl] at h
      exact (exec_gateOn_of_frame h hin.closed rfl :)

/-- R168: an advance queues its frame only between updates, and else changes nothing. -/
theorem advancePlayback_keeps_contract (hs : WriterContract s) (u : Frame) :
    WriterContract { s with writer := advancePlayback u s.writer } := by
  unfold advancePlayback
  split
  case isTrue hcan =>
    obtain ⟨-, hphase, hq⟩ := canAdvance_iff.mp hcan
    have hbetween : BetweenFrames s := hs.between_of_idle hq
    exact writerContract_of_gate_open hbetween.opened hbetween.noneCounted (.inr ⟨hphase, u, rfl⟩)
  case isFalse => exact hs

/-- Settles O56: of the documented events only the writer's own operations could break the contract, and those go through a
frame one operation after the other, so its window never counts more than 12 stores. -/
theorem documentedWriterKeepsItsContract : Obligations.DocumentedWriterKeepsItsContract := by
  intro s t e rest htrace hdoc hs h
  rw [step_of_event htrace] at h
  have hs' : WriterContract { s with trace := rest } := hs.congr rfl rfl rfl rfl rfl
  cases e with
  | op a w =>
    have haccepted : WriterContract (accept { s with trace := rest }) := hs'.congr rfl rfl rfl rfl rfl
    cases a with
    | tickSource =>
      obtain rfl : w = encode .tick := of_decide_eq_true hdoc
      rw [runEvent, operate_of_issuer (a := .tickSource) (decode_encode .tick) rfl] at h
      exact (exec_tick_keeps_contract haccepted h :)
    | environment =>
      obtain rfl : w = encode .reset := of_decide_eq_true hdoc
      rw [runEvent, operate_of_issuer (a := .environment) (decode_encode .reset) rfl] at h
      exact (exec_reset_contract h :)
    | writer => simp [documentedEvent] at hdoc
  | serialByte b =>
    obtain rfl := Host.Outcome.next.inj h
    exact ⟨hs.congr rfl rfl rfl rfl rfl, rfl⟩
  | writerTurn => exact (writerTurn_keeps_contract hs' h :)
  | advance u =>
    obtain rfl := Host.Outcome.next.inj h
    exact ⟨advancePlayback_keeps_contract hs' u, rfl⟩

end contract

end Sys2Proof.Machine
end

section
/-! PROOFS. The statement of 60_exceptions.md: the machine never stops, because neither a fault (R181) nor a refusal (R182)
ends a run. -/

namespace Sys2Proof.Machine

/-- R180, R182, R184: a word at the interface is refused with a record or executes, and both end in a next state. -/
theorem operate_next (a : Agent) (w : Word) (s : State) : ∃ t, operate a w s = .next t := by
  rcases operate_cases a w s with ⟨i, -, -, hexec⟩ | ⟨_, hrefused⟩
  · rw [hexec]
    exact exec_next i s
  · exact ⟨_, hrefused⟩

/-- R160: the writer's turn ends in a next state, whatever operation stands at the head of its queue. -/
theorem writerTurn_next (s : State) : ∃ t, writerTurn s = .next t := by
  unfold writerTurn
  split
  · exact operate_next _ _ _
  · exact ⟨_, rfl⟩

theorem runEvent_next (e : Event) (s : State) : ∃ t, runEvent e s = .next t := by
  cases e with
  | op a w => exact operate_next a w (accept s)
  | serialByte b => exact ⟨_, rfl⟩
  | writerTurn => exact writerTurn_next s
  | advance u => exact ⟨_, rfl⟩

/-- Settles O13: with no event placed the block waits, and each kind of event ends in a next state. -/
theorem everyStepHasANextState : Obligations.EveryStepHasANextState := by
  intro s
  cases htrace : s.trace with
  | nil => exact ⟨s, noEventNoChange s htrace⟩
  | cons e rest =>
    rw [step_of_event htrace]
    exact runEvent_next e _

end Sys2Proof.Machine
end

section
/-! PROOFS. The statements of 70_reset_and_hazards.md: `RESET` (R210 to R212), what the first service after it forgets
(R215), the store count of a window (R221), when a store reaches the output (R222), and a window left open (R224). -/

namespace Sys2Proof.Machine

section overrun

variable {i : Instr} {is : List Instr} {s m t : State} {new new' : List FaultRecord}

/-- R120, R221: the records `new` that the operations `is` add between the states `s` and `t` of one gated window. There is
an overrun for each store beyond the window's first 12, of which `WIN_STORES` of `s` counts those made before `is`. -/
structure WindowRecords (is : List Instr) (s t : State) (new : List FaultRecord) : Prop where
  appended : t.faults = s.faults ++ new
  overruns : new.countP (fun r => decide (r.reason = .windowOverrun)) =
    min s.winStores 12 + is.countP storesInRange - 12
  counted : min t.winStores 12 = min (s.winStores + is.countP storesInRange) 12
  noOtherReason : (∀ i ∈ is, missesTheDutyFile i = false) → ∀ r ∈ new, r.reason = .windowOverrun

/-- Operations that neither count a store nor add a record. -/
theorem WindowRecords.of_unchanged (hcount : is.countP storesInRange = 0) (hfaults : t.faults = s.faults)
    (hwin : t.winStores = s.winStores) : WindowRecords is s t [] where
  appended := by rw [hfaults, List.append_nil]
  overruns := by rw [hcount, List.countP_nil]; omega
  counted := by rw [hcount, hwin, Nat.add_zero]
  noOtherReason _ := by simp

/-- R78: an operation off the duty file is not counted and adds its own record. -/
theorem WindowRecords.of_illegalChannel (hi : missesTheDutyFile i = true) (hcount : storesInRange i = false) (w : Word)
    (hfaults : t.faults = s.faults ++ [⟨.illegalChannel, w, s.position⟩]) (hwin : t.winStores = s.winStores) :
    WindowRecords [i] s t [⟨.illegalChannel, w, s.position⟩] where
  appended := hfaults
  overruns := by simp [hcount]
  counted := by simp [hcount, hwin]
  noOtherReason hmapped := by simp [hi] at hmapped

theorem countP_storesInRange_cons (i : Instr) (is : List Instr) :
    (i :: is).countP storesInRange = [i].countP storesInRange + is.countP storesInRange :=
  List.countP_append (l₁ := [i])

/-- The records of a first operation and those of the rest. -/
theorem WindowRecords.cons (hfirst : WindowRecords [i] s m new) (hrest : WindowRecords is m t new') :
    WindowRecords (i :: is) s t (new ++ new') where
  appended := by rw [hrest.appended, hfirst.appended, List.append_assoc]
  overruns := by
    have hcounted := hfirst.counted
    rw [List.countP_append, hfirst.overruns, hrest.overruns, countP_storesInRange_cons i is]
    omega
  counted := by
    have hfirstCounted := hfirst.counted
    have hrestCounted := hrest.counted
    rw [countP_storesInRange_cons i is]
    omega
  noOtherReason hmapped r hr := by
    rw [List.forall_mem_cons] at hmapped
    rcases List.mem_append.mp hr with hr | hr
    · exact hfirst.noOtherReason (by simpa using hmapped.1) r hr
    · exact hrest.noOtherReason hmapped.2 r hr

/-- R120, R221: a store in a window is counted, and recorded from the 13th on; off the duty file it is not counted. -/
theorem exec_store_windowRecords {ch : Channel} {v : Byte} (hgate : s.gate = false)
    (h : exec (.store ch v) s = .next t) : ∃ new, WindowRecords [.store ch v] s t new := by
  rcases exec_store_cases h with ⟨hout, rfl⟩ | ⟨hch, ⟨hopen, -⟩ | ⟨-, hfew, rfl⟩ | ⟨-, hfull, rfl⟩⟩
  · exact ⟨_, .of_illegalChannel (i := .store ch v) (decide_eq_true hout) (decide_eq_false hout.not_gt) _ rfl rfl⟩
  · simp [hgate] at hopen
  all_goals have hcount : [Instr.store ch v].countP storesInRange = 1 := by simp [storesInRange, hch]
  · exact ⟨[], by simp, by rw [hcount, List.countP_nil]; omega, by rw [hcount], by simp⟩
  · refine ⟨[⟨.windowOverrun, encode (.store ch v), s.position⟩], rfl, ?_, ?_, by simp⟩
    · rw [hcount, Nat.min_eq_right hfull]; rfl
    · rw [hcount, addRecord_winStores, Nat.min_eq_right (by omega : 12 ≤ s.winStores + 1)]; rfl

/-- R121, R221: a load in a window is not counted. -/
theorem exec_load_windowRecords {ch : Channel} (h : exec (.load ch) s = .next t) :
    ∃ new, WindowRecords [.load ch] s t new := by
  rcases exec_load_cases h with ⟨-, rfl⟩ | ⟨hout, rfl⟩
  · exact ⟨[], .of_unchanged rfl rfl rfl⟩
  · exact ⟨_, .of_illegalChannel (i := .load ch) (decide_eq_true hout) rfl _ rfl rfl⟩

/-- R221 for one operation of a window. -/
theorem exec_windowRecords (hgate : s.gate = false) (hon : i ≠ .gateOn) (hreset : i ≠ .reset)
    (h : exec i s = .next t) : ∃ new, WindowRecords [i] s t new := by
  cases i with
  | store ch v => exact exec_store_windowRecords hgate h
  | load ch => exact exec_load_windowRecords h
  | gateOff =>
    rcases exec_gateOff_cases h with ⟨hopen, -⟩ | ⟨-, rfl⟩
    · simp [hgate] at hopen
    · exact ⟨[], .of_unchanged rfl rfl rfl⟩
  | tick => exact ⟨[], .of_unchanged rfl (by rw [exec_tick_frame h]) (by rw [exec_tick_frame h])⟩
  | gateOn => exact absurd rfl hon
  | reset => exact absurd rfl hreset

/-- R221 for all operations of a window. -/
theorem execAll_windowRecords (hgate : s.gate = false) (hstay : staysGated is) (h : execAll is s = .next t) :
    ∃ new, WindowRecords is s t new := by
  induction is generalizing s with
  | nil =>
    obtain rfl := Host.Outcome.next.inj h
    exact ⟨[], .of_unchanged rfl rfl rfl⟩
  | cons i is ih =>
    obtain ⟨m, hm⟩ := exec_next i s
    rw [execAll_cons hm] at h
    obtain ⟨hon, hreset⟩ := hstay.ne_of_mem List.mem_cons_self
    obtain ⟨new, hfirst⟩ := exec_windowRecords hgate hon hreset hm
    obtain ⟨new', hrest⟩ := ih (exec_keeps_gate_closed hgate hon hreset hm) hstay.tail h
    exact ⟨new ++ new', hfirst.cons hrest⟩

/-- Settles O23: a window that starts with no store counted records the stores beyond 12, and where no other record is
possible `FAULTS` is unchanged exactly when there are none beyond 12. -/
theorem overrunExactlyAtTheThirteenthStore : Obligations.OverrunExactlyAtTheThirteenthStore := by
  intro is s t hstay hgate hwin h
  obtain ⟨new, hnew⟩ := execAll_windowRecords hgate hstay h
  have hoverruns := hnew.overruns
  rw [hwin, Nat.zero_min, Nat.zero_add] at hoverruns
  refine ⟨new, hnew.appended, hoverruns, fun hmapped => ?_⟩
  have hreason := hnew.noOtherReason hmapped
  have hlength : new.length = is.countP storesInRange - 12 := by
    rw [← hoverruns, List.countP_eq_length.mpr fun r hr => decide_eq_true (hreason r hr)]
  refine ⟨?_, hreason⟩
  rw [hnew.appended, List.append_right_eq_self, ← List.length_eq_zero_iff, hlength]
  omega

end overrun

section nextService

variable {i : Instr} {is : List Instr} {s t : State} {r : Service} {ch : Channel}

/-- What every operation of a list keeps of the duty file, every service of the list reads. -/
theorem serviceLog_keeps_duty {P : Frame → Prop}
    (hstep : ∀ i ∈ is, ∀ x y, P x.duty → exec i x = .next y → P y.duty) (hs : P s.duty)
    (hr : r ∈ serviceLog is s) : P r.duty := by
  induction is generalizing s with
  | nil => simp at hr
  | cons i is ih =>
    obtain ⟨m, hm⟩ := exec_next i s
    have hrest (hmem : r ∈ serviceLog is m) : P r.duty :=
      ih (fun j hj => hstep j (List.mem_cons_of_mem i hj)) (hstep i List.mem_cons_self s m hs hm) hmem
    cases hserv : services i s with
    | false =>
      rw [serviceLog_cons_of_not_services hm hserv] at hr
      exact hrest hr
    | true =>
      rw [serviceLog_cons_of_services hm hserv, List.mem_cons] at hr
      rcases hr with rfl | hr
      · exact hs
      · exact hrest hr

/-- R120: after a `STORE` its channel holds the value stored. -/
theorem exec_store_duty_same {v : Byte} (hch : ch.toNat < 12) (h : exec (.store ch v) s = .next t) :
    t.duty[ch.toNat] = v :=
  (exec_store_duty_getElem h ⟨ch.toNat, hch⟩).trans (if_pos rfl)

/-- R22: an operation that is no `STORE` to a channel and no `RESET` keeps the channel's value. -/
theorem exec_keeps_channel (hch : ch.toNat < 12) (hstore : ∀ x, i ≠ .store ch x) (hreset : i ≠ .reset)
    (h : exec i s = .next t) : t.duty[ch.toNat] = s.duty[ch.toNat] := by
  refine (exec_duty_getElem h ⟨ch.toNat, hch⟩).trans ?_
  cases i with
  | store ch' v =>
    refine if_neg fun heq => hstore v ?_
    rw [BitVec.eq_of_toNat_eq heq]
  | reset => exact absurd rfl hreset
  | load ch' | gateOff | gateOn | tick => rfl

/-- Settles O24: `OUT` is outside the frame of `STORE`, and the channel holds `v` until a `STORE` to it or a `RESET`. -/
theorem storeReachesTheOutputAtTheNextService : Obligations.StoreReachesTheOutputAtTheNextService := by
  intro ch v s t hch h
  have hduty := exec_store_duty_same hch h
  refine ⟨by rw [exec_store_frame h], ?_, fun is r rs hstore hreset hlog => ?_⟩
  · rw [exec_load_mapped ch t hch, hduty]
    rfl
  · have hr : r ∈ serviceLog is t := hlog ▸ List.mem_cons_self
    have hread : r.duty[ch.toNat] = v :=
      serviceLog_keeps_duty (P := fun d => d[ch.toNat] = v) (fun i hi x y hx hy => by
        have hother (z : Byte) : i ≠ .store ch z := ne_of_mem_of_not_mem hi (hstore z)
        rw [exec_keeps_channel hch hother (ne_of_mem_of_not_mem hi hreset) hy, hx]) hduty hr
    exact (serviceLog_out_getElem hr ⟨ch.toNat, hch⟩).trans (congrArg (comparator · r.acc) hread)

end nextService

section openWindow

variable {is : List Instr} {s t : State}

/-- R105, R224: no operation of a window changes `OUT`. -/
theorem execAll_window_out (hgate : s.gate = false) (hstay : staysGated is) (h : execAll is s = .next t) :
    t.out = s.out := by
  refine (execAll_keeps (P := fun x => x.gate = false ∧ x.out = s.out) ?_ ⟨hgate, rfl⟩ h).2
  intro i hi x y ⟨hclosed, hout⟩ hy
  obtain ⟨hon, hreset⟩ := hstay.ne_of_mem hi
  have hkept := outputsHoldBetweenServices i x y hy (not_services_of_gate_closed hclosed hon) hreset
  exact ⟨exec_keeps_gate_closed hclosed hon hreset hy, hkept.trans hout⟩

/-- Settles O30: with the gate closed throughout no tick is serviced, so `ACC` counts none, and every arrival is latched
or lost. -/
theorem unclosedWindowFreezesTheOutputs : Obligations.UnclosedWindowFreezesTheOutputs := by
  intro is s t hgate hstay h
  have hnone : serviceLog is s = [] := serviceLog_of_staysGated hgate hstay
  have hacc := execAll_acc hstay.2 h
  have hticks := execAll_accounts_for_ticks hstay.2 h
  rw [hnone] at hacc hticks
  refine ⟨hnone, execAll_window_out hgate hstay h, hacc.trans (BitVec.add_zero _), fun ⟨_, hopen, _⟩ => ?_, ?_⟩
  · simp [execAll_keeps_gate_closed hgate hstay h] at hopen
  · rwa [List.length_nil, Nat.zero_add] at hticks

end openWindow

section draw

variable {i : Instr} {s t : State} (o : Levels)

/-- R101, R215: an operation that services a tick ends in the same state whatever `OUT` it found. -/
theorem exec_with_out_of_services (hserv : services i s = true) (h : exec i s = .next t) :
    exec i { s with out := o } = .next t := by
  rcases services_cases hserv with ⟨rfl, hgate⟩ | ⟨rfl, hgate, hpend⟩
  · rw [exec_tick, if_pos hgate] at h ⊢
    exact h
  · rw [exec_gateOn, if_neg (by simp [hgate]), if_pos hpend] at h ⊢
    exact h

/-- R105, R215: an operation that services no tick and is no `RESET` does not read `OUT` and leaves it as it was. -/
theorem exec_with_out_of_not_services (hserv : services i s = false) (hreset : i ≠ .reset) (h : exec i s = .next t) :
    exec i { s with out := o } = .next { t with out := o } := by
  cases i with
  | store ch v =>
    rcases exec_store_cases h with ⟨hout, rfl⟩ | ⟨hch, ⟨hgate, rfl⟩ | ⟨hgate, hfew, rfl⟩ | ⟨hgate, hfull, rfl⟩⟩
    · exact exec_store_unmapped ch v _ hout
    · exact exec_store_of_gate_open v hch hgate
    · exact exec_store_in_window v hch hgate hfew
    · exact exec_store_of_window_full v hch hgate hfull
  | load ch =>
    rcases exec_load_cases h with ⟨hch, rfl⟩ | ⟨hout, rfl⟩
    · exact exec_load_mapped ch _ hch
    · exact exec_load_unmapped ch _ hout
  | gateOff =>
    obtain ⟨hcloses, hkeeps, -⟩ := gateOffFollowsItsRule { s with out := o }
    rcases exec_gateOff_cases h with ⟨hgate, rfl⟩ | ⟨hgate, rfl⟩
    · exact hcloses hgate
    · exact hkeeps hgate
  | gateOn =>
    obtain ⟨hkeeps, hopens, -⟩ := gateOnFollowsItsRule { s with out := o }
    rcases exec_gateOn_cases h with ⟨hgate, rfl⟩ | ⟨hgate, hpend, rfl⟩ | ⟨hgate, hpend, -⟩
    · exact hkeeps hgate
    · exact hopens hgate hpend
    · simp [services, hgate, hpend] at hserv
  | tick =>
    obtain ⟨-, hdefers, hloses, hdrops⟩ := tickFollowsItsRule { s with out := o }
    rcases exec_tick_cases h with ⟨hgate, -⟩ | ⟨hgate, hdefer, hpend, rfl⟩ | ⟨hgate, hwhy, rfl⟩
    · simp [services, hgate] at hserv
    · exact hdefers hgate hdefer hpend
    · cases hpolicy : s.params.gatedTickPolicy with
      | defer1 => exact hloses hgate hpolicy (hwhy.resolve_left (by simp [hpolicy]))
      | drop => exact hdrops hgate hpolicy
  | reset => exact absurd rfl hreset

/-- Settles O47: `OUT` alone differs until the first service, which ends in one state from both. -/
theorem firstServiceForgetsTheDraw : Obligations.FirstServiceForgetsTheDraw := by
  intro is s t o hreset hlog h
  induction is generalizing s with
  | nil => exact absurd rfl hlog
  | cons i is ih =>
    obtain ⟨m, hm⟩ := exec_next i s
    rw [execAll_cons hm] at h
    cases hserv : services i s with
    | true => rw [execAll_cons (exec_with_out_of_services o hserv hm), h]
    | false =>
      rw [serviceLog_cons_of_not_services hm hserv] at hlog
      rw [execAll_cons (exec_with_out_of_not_services o hserv (List.ne_of_not_mem_cons hreset).symm hm)]
      exact ih m (List.not_mem_of_not_mem_cons hreset) hlog h

end draw

section deviceReset

/-- Settles O43: the draw is the one the counter of draws names. -/
theorem resetFollowsItsRule : Obligations.ResetFollowsItsRule :=
  fun s => ⟨_, s.draws, exec_reset s, rfl, rfl, rfl, rfl, rfl⟩

/-- Settles O44: a read depends on the duty file only, and the fields named are outside the frame of `RESET`. -/
theorem resetFrame : Obligations.ResetFrame := by
  intro s t h
  have hframe := exec_reset_frame h
  refine ⟨memRead_congr (by rw [exec_reset_cases h]; rfl), ?_⟩
  rw [hframe]
  exact ⟨rfl, rfl, rfl, rfl, rfl, rfl⟩

/-- Settles O45: a clean end has no record, and `FAULTS` is outside the frame of `RESET`. -/
theorem resetKeepsFaultsAndLost : Obligations.ResetKeepsFaultsAndLost := by
  intro s t h
  obtain ⟨-, hlost, hfaults, -⟩ := resetFrame s t h
  exact ⟨hfaults, hlost, fun hrecorded hclean => hrecorded (hfaults.symm.trans hclean.1)⟩

/-- Settles O46: `RESET` writes every field of the state but those the statement starts from. -/
theorem initialStateIsAsAfterReset : Obligations.InitialStateIsAsAfterReset := by
  intro p s hparams hlost hfaults hdraws hrdata hposition htrace
  rw [exec_reset]
  simp only [resetRegisters, drawOut, rebootWriter, hparams, hlost, hfaults, hdraws, hrdata, hposition, htrace]
  rfl

end deviceReset

end Sys2Proof.Machine
end
